-- ==== Sys2Proof/Word.lean ====
section
/-! DEFINITION. The word types of the block (00_scope.md R7, R9): bit 0 is the least significant bit of each. -/

namespace Sys2Proof

/-- A channel slot word, 32 bits, a `Q16.16` number or three packed bytes (R9, R31, R32). -/
abbrev Word := BitVec 32

/-- An unsigned normalised 8-bit code: `n` stands for `n / 255` (R9). -/
abbrev Code8 := BitVec 8

/-- A command word `C`, 64 bits (R47). -/
abbrev CmdWord := BitVec 64

/-- A response word `O_RSP = {band, R, G, B}`, 25 bits (R49). -/
abbrev Response := BitVec 25

end Sys2Proof
end

