-- ==== Sys2Proof/Config.lean ====
section
/-! DEFINITION. The implementation parameters of 00_scope.md R6: the strap types, and the parameters the spec leaves
open (TIME_UNIT, LAT_*), carried as constants without a body so that a claim may name them; no rule reads them. -/

namespace Sys2Proof

/-- The fixture variant (R6): exactly three values, because strap value 3 is reserved and a model refuses it (R141, U2). -/
inductive Variant where
  /-- Strap 0: three slots, no effect, region policy constantly false. -/
  | pass3
  /-- Strap 1: five slots, effect, centred band. -/
  | strobe5
  /-- Strap 2: two packed slots, effect, centred band. -/
  | packed2
  deriving DecidableEq, Repr

/-- PACKED_G_SRC (R6, R112): which Frame State register feeds the green output byte in PACKED2. OPEN in the spec
(D11): both values are modelled, and a claim that names neither holds for both. -/
inductive GreenSource where
  /-- Strap 0: the corrected output `(r, g, b)`. -/
  | green
  /-- Strap 1: the output of the original, `(r, r, b)`. -/
  | red
  deriving DecidableEq, Repr

/-- TICKS_PER_TU (R6, R85): ticks in one time-unit. -/
def Config.ticksPerTimeUnit : Nat := 2550000

/-- TIME_UNIT (R6, R85, U6): the physical duration of one time-unit, here in seconds. OPEN: no body, and no rule
reads it; a claim in seconds names it. Log 10. -/
opaque Config.timeUnit : Rat

/-- The three latencies that R6 names. -/
inductive LatencyClass where
  /-- LAT_CHWR. -/
  | chwr
  /-- LAT_PREP. -/
  | prep
  /-- LAT_COL. -/
  | col
  deriving DecidableEq, Repr

/-- How far a latency exceeds its lower bound of one clock cycle. OPEN (R148, U8, C12): no body. Log 10. -/
opaque Config.latencyBeyondOne : LatencyClass → Nat

/-- LAT_CHWR, LAT_PREP, LAT_COL (R6): finite and at least one clock cycle; no rule depends on them (R148). -/
def Config.latency (k : LatencyClass) : Nat := Config.latencyBeyondOne k + 1

end Sys2Proof
end

