-- ==== Sys2Proof/Syntax.lean ====
section
/-! DEFINITION. The commands of command set 1 (30_encoding.md R48): one constructor per row of opcode_table.json, and
the two command ports they arrive on. -/

namespace Sys2Proof

/-- The two command ports (R45): `h` is the Host's, `b` the Bridge's. -/
inductive Port where
  /-- Port H. -/
  | h
  /-- Port B. -/
  | b
  deriving DecidableEq, Repr

/-- The four opcodes that are not reserved (R48). -/
inductive Opcode where
  /-- OP 0x1. -/
  | chwr
  /-- OP 0x2. -/
  | prep
  /-- OP 0x4. -/
  | col1
  /-- OP 0x5. -/
  | col2
  deriving DecidableEq, Repr

/-- A command with its operands, each operand as R54 reads it: SLOT, INDEX, COUNT unsigned, DT, X, Y signed integers,
VALUE 32 raw bits. The ranges that the fields' widths give are the checks of `WellFormed`. -/
inductive Instr where
  /-- CHWR: write one channel slot (R65). -/
  | chwr (slot : Nat) (value : Word)
  /-- PREP: prepare one frame; `dt` is the elapsed time in ticks (R72). -/
  | prep (dt : Int)
  /-- COL1: colour of one pixel, 1-D addressing (R113). -/
  | col1 (index count : Nat)
  /-- COL2: colour of one pixel, 2-D addressing; `index` and `x` are carried and ignored (R114). -/
  | col2 (index : Nat) (x y : Int)
  deriving DecidableEq, Repr

/-- The opcode of a command (R48). -/
def Instr.opcode : Instr → Opcode
  | .chwr _ _ => .chwr
  | .prep _ => .prep
  | .col1 _ _ => .col1
  | .col2 _ _ _ => .col2

end Sys2Proof
end

