-- ==== Sys2Proof/Machine/State.lean ====
section
/-! DEFINITION. The machine's state as plain data (10_state.md), the reasons a step can stop, and the state after reset. -/

namespace Sys2Proof.Machine

/-- The Channel Buffer (R11, R30): the slot space as (slot address, 32-bit word) pairs in one canonical form, addresses
strictly rising and no pair equal to what an unlisted slot reads as. The unit is the slot: there are no byte addresses
(R33). Log 5. -/
abbrev Memory := List (Nat × Word)

/-- A slot that nothing has written reads as its reset value (R23). -/
def Memory.unlisted : Word := 0#32

/-- The canonical form of the Channel Buffer. -/
abbrev Memory.wf (m : Memory) : Prop :=
  m.Pairwise (fun c d => c.1 < d.1) ∧ ∀ c ∈ m, c.2 ≠ Memory.unlisted

/-- What an agent does to the block: the Host or the Bridge offers a command word on its port (R46), or the Platform
asserts and releases RST with these levels on the strap pins (R140). -/
inductive Input where
  /-- A command word accepted on a port. -/
  | command (port : Port) (word : CmdWord)
  /-- One assertion of RST; the pins VARIANT[1:0] and PACKED_G_SRC as they stand at its release. -/
  | reset (variantPins : BitVec 2) (greenPin : BitVec 1)
  deriving DecidableEq, Repr

/-- A colour: three codes (R110). -/
structure Rgb where
  /-- The red code. -/
  r : Code8
  /-- The green code. -/
  g : Code8
  /-- The blue code. -/
  b : Code8
  deriving DecidableEq, Repr

/-- The two error causes (R121, R122). -/
inductive ErrorCause where
  /-- Illegal command word, cause code 0. -/
  | ill
  /-- Channel slot does not exist, cause code 1. -/
  | slot
  deriving DecidableEq, Repr

/-- The state of the block (R10), the straps it sampled at reset (R18, R140), and two fields of the model's own: the
agents' moves still to come and the responses already emitted. -/
structure State where
  /-- VARIANT as sampled at the release of reset (R140). -/
  variant : Variant
  /-- PACKED_G_SRC as sampled at the release of reset (R140). -/
  packedGSrc : GreenSource
  /-- `CH[0 .. NCH-1]` (R11). -/
  ch : Memory
  /-- `FS.R` (R12). -/
  fsR : Code8
  /-- `FS.G` (R12). -/
  fsG : Code8
  /-- `FS.B` (R12). -/
  fsB : Code8
  /-- `FS.I`, the decoded effect intensity (R13). -/
  fsI : Code8
  /-- `FS.Q`, the decoded effect rate before remapping (R13). -/
  fsQ : Code8
  /-- `FS.E`, the effect brightness (R13). -/
  fsE : Code8
  /-- `ACC`, ticks since the start of the current period (R14). -/
  acc : BitVec 16
  /-- `ST.FV`, frame valid (R15). -/
  stFV : Bool
  /-- `ST.HOLD`, the effect is held on (R15). -/
  stHold : Bool
  /-- `ST.WAVE`, the value of the square waveform (R15). -/
  stWave : Bool
  /-- `ERR.ILL`, sticky (R16). -/
  errIll : Bool
  /-- `ERR.SLOT`, sticky (R16). -/
  errSlot : Bool
  /-- MODEL'S OWN: the agents' moves not executed yet, in the total order of R38. Their order is the free choice of
  R38 and U7: nothing constrains it. Log 2. -/
  inputs : List Input
  /-- MODEL'S OWN: the words emitted on port O since the last reset, oldest first (R49, R149). No command reads it.
  Log 4. -/
  responses : List Response
  deriving DecidableEq, Repr

/-- The block never stops with a fault: errors set a flag and execution goes on (R126), and the block "has no halted
state" (R149). So there is no fault, and no constructor. Log 12. -/
inductive Fault where
  deriving DecidableEq, Repr

/-- Why a step has no meaning. -/
inductive Refusal where
  /-- Raised by `exec` for a command that has no meaning yet. Safe: nothing is claimed of it. No command is left so. -/
  | notModelled (mnemonic : String)
  /-- Raised by a reset whose VARIANT pins read 3: the value is reserved, the spec gives the block no behaviour with it
  and "a model refuses the configuration" (R141, U2). Safe: nothing is claimed of it. -/
  | reservedVariantStrap
  deriving DecidableEq, Repr

/-- The state after a reset that sampled these straps: every state element is zero (R23). -/
def State.resetWith (v : Variant) (g : GreenSource) : State where
  variant := v
  packedGSrc := g
  ch := []
  fsR := 0#8
  fsG := 0#8
  fsB := 0#8
  fsI := 0#8
  fsQ := 0#8
  fsE := 0#8
  acc := 0#16
  stFV := false
  stHold := false
  stWave := false
  errIll := false
  errSlot := false
  inputs := []
  responses := []

/-- The machine right after reset (R23). The straps are inputs that the spec leaves to the platform: STROBE5 and GREEN
here are a DESIGN CHOICE (log 1); `State.resetWith` gives every other choice. -/
def State.reset : State := State.resetWith .strobe5 .green

end Sys2Proof.Machine
end

