-- ==== Sys2Proof/Machine/Ops.lean ====
section
/-! DEFINITION. The named operations over the Channel Buffer, the Frame State, the flags, port O and the agents' moves.
Raising an error cause, this block's whole "taking of an exception", is the one operation `State.raise`. -/

namespace Sys2Proof.Machine

/-- `CH[a]`, read whole (R8, R35). -/
def Memory.read : Memory → Nat → Word
  | [], _ => Memory.unlisted
  | (b, w) :: m, a => if b = a then w else Memory.read m a

/-- `CH[a] <- v`, written whole (R8, R35), keeping the canonical form. -/
def Memory.write : Memory → Nat → Word → Memory
  | [], a, v => if v = Memory.unlisted then [] else [(a, v)]
  | (b, w) :: m, a, v =>
    if a < b then (if v = Memory.unlisted then (b, w) :: m else (a, v) :: (b, w) :: m)
    else if a = b then (if v = Memory.unlisted then m else (a, v) :: m)
    else (b, w) :: Memory.write m a v

/-- `CH[slot] <- value`. -/
def State.writeSlot (s : State) (slot : Nat) (value : Word) : State := { s with ch := s.ch.write slot value }

/-- `FS.R <- r; FS.G <- g; FS.B <- b` (R72). -/
def State.setColour (s : State) (r g b : Code8) : State := { s with fsR := r, fsG := g, fsB := b }

/-- The writes of one effect step, all at once (R92). -/
def State.setEffect (s : State) (i q e : Code8) (acc : BitVec 16) (hold wave : Bool) : State :=
  { s with fsI := i, fsQ := q, fsE := e, acc := acc, stHold := hold, stWave := wave }

/-- `ST.FV <- 1` (R72). -/
def State.setFrameValid (s : State) : State := { s with stFV := true }

/-- `raise ILL` or `raise SLOT` (R8): the sticky flag is set and the command ends with no other change and no response.
There is no trap entry (R126) and no return (R127): nothing is saved, masked or vectored. -/
def State.raise (c : ErrorCause) (s : State) : State :=
  match c with
  | .ill => { s with errIll := true }
  | .slot => { s with errSlot := true }

/-- The word of a response, `{band, R, G, B}` (R49). -/
def responseWord (band : Bool) (c : Rgb) : Response := BitVec.ofBool band ++ c.r ++ c.g ++ c.b

/-- `respond(rgb, band)`: one response on port O (R8, R49). -/
def State.respond (s : State) (c : Rgb) (band : Bool) : State :=
  { s with responses := s.responses ++ [responseWord band c] }

/-- The agents' moves still to come, replaced: what accepting a move and offering one do. -/
def State.withInputs (s : State) (l : List Input) : State := { s with inputs := l }

end Sys2Proof.Machine
end

