-- ==== Sys2Proof/Machine/Straps.lean ====
section
/-! DEFINITION. What follows from the straps (00_scope.md R6, 10_state.md R18). -/

namespace Sys2Proof.Machine

/-- NCH, the number of channel slots (R6). -/
def nch : Variant → Nat
  | .pass3 => 3
  | .strobe5 => 5
  | .packed2 => 2

/-- EFFECT_EN: effect channels are decoded (R6). -/
def effectEn : Variant → Bool
  | .pass3 => false
  | .strobe5 => true
  | .packed2 => true

/-- REGION_EN: the Effect Region Policy is the centred band and not the constant false (R6, R100). -/
def regionEn : Variant → Bool
  | .pass3 => false
  | .strobe5 => true
  | .packed2 => true

/-- PACKED: the slots hold packed bytes (R6, R31, R32). -/
def isPacked : Variant → Bool
  | .pass3 => false
  | .strobe5 => false
  | .packed2 => true

/-- The variant that the pins VARIANT[1:0] select; 3 is reserved and selects none (R18, R141). -/
def variantOfStrap (pins : BitVec 2) : Option Variant :=
  if pins = 0#2 then some .pass3
  else if pins = 1#2 then some .strobe5
  else if pins = 2#2 then some .packed2
  else none

/-- The setting that the pin PACKED_G_SRC selects (R18). -/
def greenOfStrap (pin : BitVec 1) : GreenSource := if pin = 0#1 then .green else .red

end Sys2Proof.Machine
end

