-- ==== Sys2Proof/Machine/Operands.lean ====
section
/-! DEFINITION. How the data operands are read: the decoding of slot words to codes (40_channel_decoder.md R66 to R70),
the effective elapsed time and the period of a rate code (41_effect_phase_accumulator.md R86, R88). -/

namespace Sys2Proof.Machine

/-- `clamp(n, lo, hi)` (R7). -/
def clampInt (n lo hi : Int) : Int := if n < lo then lo else if n > hi then hi else n

/-- `dec8(V)`: the integer part of the `Q16.16` value by floor, clamped to 0 to 255 (R66). Dividing an `Int` by a positive number rounds
toward minus infinity. -/
def dec8 (v : Word) : Code8 := BitVec.ofInt 8 (clampInt (v.toInt / 65536) 0 255)

/-- `hi(V) = V[31:24]` (R68). -/
def hiByte (v : Word) : Code8 := v.extractLsb' 24 8

/-- `lo(V) = V[23:16]` (R68). -/
def loByte (v : Word) : Code8 := v.extractLsb' 16 8

/-- `fr(V) = floor((zext_32(V) + 128) / 256) mod 256` (R69). -/
def frByte (v : Word) : Code8 := BitVec.ofNat 8 ((v.toNat + 128) / 256 % 256)

/-- The five decoded codes `(r, g, b, i, q)` of R70. -/
structure Channels where
  /-- Red. -/
  r : Code8
  /-- Green. -/
  g : Code8
  /-- Blue. -/
  b : Code8
  /-- Effect intensity; 0 and never stored when EFFECT_EN = 0. -/
  i : Code8
  /-- Effect rate; 0 and never stored when EFFECT_EN = 0. -/
  q : Code8
  deriving DecidableEq, Repr

/-- `decode(CH)` by VARIANT (R70, slot meanings R36). -/
def decodeChannels (v : Variant) (ch : Memory) : Channels :=
  match v with
  | .pass3 => ⟨dec8 (ch.read 0), dec8 (ch.read 1), dec8 (ch.read 2), 0#8, 0#8⟩
  | .strobe5 => ⟨dec8 (ch.read 0), dec8 (ch.read 1), dec8 (ch.read 2), dec8 (ch.read 3), dec8 (ch.read 4)⟩
  | .packed2 => ⟨hiByte (ch.read 0), loByte (ch.read 0), frByte (ch.read 0), hiByte (ch.read 1), loByte (ch.read 1)⟩

/-- `dt_eff(DT)`: a negative elapsed time is used as zero (R86). -/
def dtEff (dt : Int) : Nat := if dt < 0 then 0 else dt.toNat

/-- `P(q)`, the period of the waveform in ticks (R88); meant for `q` in 1 to 255, since hold is tested first (R87). -/
def period (q : Code8) : Nat := 38250 - 135 * q.toNat

end Sys2Proof.Machine
end

