-- ==== Sys2Proof/Machine/Flags.lean ====
section
/-! DEFINITION. Every flag computation: the waveform and hold flags (41_effect_phase_accumulator.md R87, R90), and the
error flags as one vector with their OR (10_state.md R16, 60_exceptions.md R121, R122). -/

namespace Sys2Proof.Machine

/-- The value of ST.HOLD after an effect step with rate code `q`: hold is rate code 0 (R87, R90). -/
def holdFlag (q : Code8) : Bool := q = 0#8

/-- The waveform value `w` from the accumulator after the advance: 1 in hold, else 1 for the first tenth of the
period, with a strict comparison (R90). -/
def waveFlag (q : Code8) (acc' : BitVec 16) : Bool := if q = 0#8 then true else 10 * acc'.toNat < period q

/-- `{ERR.SLOT, ERR.ILL}`: the error flags with each cause at the bit of its cause code (R121, R122). -/
def errorFlags (s : State) : BitVec 2 := BitVec.ofBool s.errSlot ++ BitVec.ofBool s.errIll

/-- The cause code: the bit position in `{ERR.SLOT, ERR.ILL}` (R121, R122). -/
def causeCode : ErrorCause → Nat
  | .ill => 0
  | .slot => 1

/-- `ERR_ANY = ERR.ILL or ERR.SLOT` (R16, R18). -/
def errAny (s : State) : Bool := s.errIll || s.errSlot

end Sys2Proof.Machine
end

