-- ==== Sys2Proof/Machine/Effect.lean ====
section
/-! DEFINITION. Sub-block effect_phase_accumulator: the second half of PREP (41_effect_phase_accumulator.md). -/

namespace Sys2Proof.Machine

/-- ACC after an effect step: advanced by the effective elapsed time modulo the period, kept in hold (R87, R89). -/
def accAfter (acc : BitVec 16) (q : Code8) (dt : Int) : BitVec 16 :=
  if q = 0#8 then acc else BitVec.ofNat 16 ((acc.toNat + dtEff dt) % period q)

/-- FS.E: the intensity gated by the waveform bit (R91). -/
def brightness (i : Code8) (wave : Bool) : Code8 := if wave then i else 0#8

/-- `effect_step(i, q, DT)` (R92). -/
def effectStep (i q : Code8) (dt : Int) (s : State) : State :=
  let acc' := accAfter s.acc q dt
  let w := waveFlag q acc'
  s.setEffect i q (brightness i w) acc' (holdFlag q) w

end Sys2Proof.Machine
end

