-- ==== Sys2Proof/Machine/Channel.lean ====
section
/-! DEFINITION. Sub-block channel_decoder: the meanings of CHWR and PREP (40_channel_decoder.md). -/

namespace Sys2Proof.Machine

/-- CHWR (R65): a slot that does not exist raises SLOT (R122), any other is written unchanged. -/
def execChwr (slot : Nat) (value : Word) (s : State) : Host.Outcome State Fault Refusal :=
  if nch s.variant ≤ slot then .next (s.raise .slot) else .next (s.writeSlot slot value)

/-- The frame that PREP prepares (R72): the colour codes always, the effect step only when EFFECT_EN = 1 (R93). -/
def prepareFrame (c : Channels) (dt : Int) (s : State) : State :=
  let s₁ := s.setColour c.r c.g c.b
  let s₂ := if effectEn s.variant then effectStep c.i c.q dt s₁ else s₁
  s₂.setFrameValid

/-- PREP (R72): one atomic step over a snapshot of all slots (R35); it never fails. -/
def execPrep (dt : Int) (s : State) : Host.Outcome State Fault Refusal :=
  .next (prepareFrame (decodeChannels s.variant s.ch) dt s)

end Sys2Proof.Machine
end

