-- ==== Sys2Proof/Machine/Region.lean ====
section
/-! DEFINITION. Sub-block spatial_region_selector: the Effect Region Policy (42_spatial_region_selector.md). -/

namespace Sys2Proof.Machine

/-- `band1(INDEX, COUNT)`: the centred band of 1-D addressing, by cross-multiplication (R101). -/
def band1 (v : Variant) (index count : Nat) : Bool :=
  regionEn v && 3 * count < 8 * index && 8 * index < 5 * count

/-- `band2(Y)`: the centred band of 2-D addressing (R102). -/
def band2 (v : Variant) (y : Int) : Bool := regionEn v && -4096 < y && y < 4096

end Sys2Proof.Machine
end

