-- ==== Sys2Proof/Machine/Compositor.lean ====
section
/-! DEFINITION. Sub-block color_compositor: the meanings of COL1 and COL2 (43_color_compositor.md). -/

namespace Sys2Proof.Machine

/-- `base()`: the base colour; PACKED2 with PACKED_G_SRC = RED shows the red code as green (R112). -/
def baseColour (s : State) : Rgb :=
  if s.variant = .packed2 ∧ s.packedGSrc = .red then ⟨s.fsR, s.fsR, s.fsB⟩ else ⟨s.fsR, s.fsG, s.fsB⟩

/-- `compose(band)`: grey at the effect brightness in the effect band, the base colour elsewhere (R111). -/
def compose (band : Bool) (s : State) : Rgb := if band then ⟨s.fsE, s.fsE, s.fsE⟩ else baseColour s

/-- Answer one pixel whose band bit is known (R113, R114). -/
def colourPixel (band : Bool) (s : State) : State := s.respond (compose band s) band

/-- COL1 (R113). -/
def execCol1 (index count : Nat) (s : State) : Host.Outcome State Fault Refusal :=
  .next (colourPixel (band1 s.variant index count) s)

/-- COL2 (R114): INDEX and X are carried and ignored (R104). -/
def execCol2 (_index : Nat) (_x y : Int) (s : State) : Host.Outcome State Fault Refusal :=
  .next (colourPixel (band2 s.variant y) s)

end Sys2Proof.Machine
end

