-- ==== Sys2Proof/Machine/Dispatch.lean ====
section
/-! DEFINITION. One arm per command (30_encoding.md R48), each one direct call of its meaning. -/

namespace Sys2Proof.Machine

def exec (i : Instr) (s : State) : Host.Outcome State Fault Refusal :=
  match i with
  | .chwr slot value => Sys2Proof.Machine.execChwr slot value s
  | .prep dt => Sys2Proof.Machine.execPrep dt s
  | .col1 index count => Sys2Proof.Machine.execCol1 index count s
  | .col2 index x y => Sys2Proof.Machine.execCol2 index x y s

end Sys2Proof.Machine
end

