-- ==== Sys2Proof/WellFormed.lean ====
section
/-! DEFINITION. Which commands a 64-bit word can stand for: every operand in the range of its field (30_encoding.md
R50 to R54). A slot address at or above NCH is well formed: it is a legal word that raises SLOT (R55). -/

namespace Sys2Proof

/-- `n` fits an unsigned field of `bits` bits. -/
def fitsUnsigned (bits n : Nat) : Bool := n < 2 ^ bits

/-- `n` fits a two's complement field of `bits` bits. -/
def fitsSigned (bits : Nat) (n : Int) : Bool := -(2 ^ (bits - 1) : Int) ≤ n && n < (2 ^ (bits - 1) : Int)

/-- The operand ranges of R54, as a check. -/
def wellFormed : Instr → Bool
  | .chwr slot _ => fitsUnsigned 3 slot
  | .prep dt => fitsSigned 32 dt
  | .col1 index count => fitsUnsigned 16 index && fitsUnsigned 16 count
  | .col2 index x y => fitsUnsigned 16 index && fitsSigned 16 x && fitsSigned 16 y

/-- A command that some command word encodes. -/
abbrev WellFormed (i : Instr) : Prop := wellFormed i = true

end Sys2Proof
end

