-- ==== Sys2Proof/Decode.lean ====
section
/-! DEFINITION. The decoder of 30_encoding.md R55 and R56, total on ports and 64-bit words, and the encoder written from
the same field tables R50 to R53. -/

namespace Sys2Proof

/-- Why a command word is illegal, in the order R55 tests. -/
inductive IllegalReason where
  /-- (1) OP is one of the twelve reserved values. -/
  | reservedOpcode
  /-- (2) OP is legal and the word arrived on the other port. -/
  | wrongPort
  /-- (3) a must-be-zero field (Z0 or Z1) of the format is not zero. -/
  | nonzeroMustBeZero
  deriving DecidableEq, Repr

/-- The value of the OP field (R48). -/
def opBits : Opcode → BitVec 4
  | .chwr => 0x1#4
  | .prep => 0x2#4
  | .col1 => 0x4#4
  | .col2 => 0x5#4

/-- The opcode map (R48): every value that is no command's is reserved. -/
def opcodeOf (op : BitVec 4) : Option Opcode :=
  if op = opBits .chwr then some .chwr
  else if op = opBits .prep then some .prep
  else if op = opBits .col1 then some .col1
  else if op = opBits .col2 then some .col2
  else none

/-- The port a command belongs to (R48, R129). -/
def portOf : Opcode → Port
  | .chwr => .b
  | .prep => .h
  | .col1 => .h
  | .col2 => .h

/-- `C[63:60]`, the OP field (R47). -/
def opField (c : CmdWord) : BitVec 4 := c.extractLsb' 60 4

/-- `C[59:48]`, the field Z0 of every format (R47). -/
def z0Field (c : CmdWord) : BitVec 12 := c.extractLsb' 48 12

/-- The payload of a word whose OP, port and Z0 are good, by format (R50 to R54, R56). -/
def decodePayload (op : Opcode) (c : CmdWord) : Except IllegalReason Instr :=
  match op with
  | .chwr =>
    if c.extractLsb' 35 13 ≠ 0#13 then .error .nonzeroMustBeZero
    else .ok (.chwr (c.extractLsb' 32 3).toNat (c.extractLsb' 0 32))
  | .prep =>
    if c.extractLsb' 32 16 ≠ 0#16 then .error .nonzeroMustBeZero
    else .ok (.prep (c.extractLsb' 0 32).toInt)
  | .col1 =>
    if c.extractLsb' 0 16 ≠ 0#16 then .error .nonzeroMustBeZero
    else .ok (.col1 (c.extractLsb' 32 16).toNat (c.extractLsb' 16 16).toNat)
  | .col2 =>
    .ok (.col2 (c.extractLsb' 32 16).toNat (c.extractLsb' 16 16).toInt (c.extractLsb' 0 16).toInt)

/-- The decoder (R56), with the tests in the order of R55: reserved OP, wrong port, must-be-zero fields. -/
def decode (port : Port) (c : CmdWord) : Except IllegalReason Instr :=
  match opcodeOf (opField c) with
  | none => .error .reservedOpcode
  | some op =>
    if port ≠ portOf op then .error .wrongPort
    else if z0Field c ≠ 0#12 then .error .nonzeroMustBeZero
    else decodePayload op c

/-- The port a word's opcode belongs to; port H for a reserved opcode, where no port makes it legal. Log 11. -/
def homePort (c : CmdWord) : Port :=
  match opcodeOf (opField c) with
  | some op => portOf op
  | none => .h

/-- The word `w` of an opcode-table row as a command word: the table counts bit 0 as the least significant bit of the
64-bit word, as R7 does, and every bit at or above `nbits` is 0. -/
def tableWord (nbits w : Nat) : CmdWord := BitVec.ofNat 64 (w % 2 ^ nbits)

/-- What the decoder reads from a word of an opcode-table row, offered on the row's port (R48). -/
def decodeTableWord (nbits w : Nat) : Option Instr :=
  match decode (homePort (tableWord nbits w)) (tableWord nbits w) with
  | .ok i => some i
  | .error _ => none

/-- The word of a command, by the field tables of R50 to R53; must-be-zero fields are written 0. -/
def encode : Instr → CmdWord
  | .chwr slot value => opBits .chwr ++ 0#12 ++ 0#13 ++ BitVec.ofNat 3 slot ++ value
  | .prep dt => opBits .prep ++ 0#12 ++ 0#16 ++ BitVec.ofInt 32 dt
  | .col1 index count => opBits .col1 ++ 0#12 ++ BitVec.ofNat 16 index ++ BitVec.ofNat 16 count ++ 0#16
  | .col2 index x y => opBits .col2 ++ 0#12 ++ BitVec.ofNat 16 index ++ BitVec.ofInt 16 x ++ BitVec.ofInt 16 y

/-- The `mask` column of opcode_table.json (R56). -/
def tableMask : Opcode → CmdWord
  | .chwr => 0xFFFFFFF800000000#64
  | .prep => 0xFFFFFFFF00000000#64
  | .col1 => 0xFFFF00000000FFFF#64
  | .col2 => 0xFFFF000000000000#64

/-- The `match` column of opcode_table.json (R56). -/
def tableMatch : Opcode → CmdWord
  | .chwr => 0x1000000000000000#64
  | .prep => 0x2000000000000000#64
  | .col1 => 0x4000000000000000#64
  | .col2 => 0x5000000000000000#64

end Sys2Proof
end

