-- ==== Sys2Proof/Machine/Ports.lean ====
section
/-! DEFINITION. The acceptance of the agents' moves (30_encoding.md R46), an illegal word (60_exceptions.md R121) and
reset (70_reset_and_hazards.md R140). -/

namespace Sys2Proof.Machine

/-- Take the next move in the total order (R38, R46), if any agent has one. -/
def takeInput (s : State) : Option (Input × State) :=
  match s.inputs with
  | [] => none
  | x :: rest => some (x, s.withInputs rest)

/-- An illegal word is discarded: it sets ERR.ILL, whatever the reason, and nothing else changes (R55, R121). -/
def discardIllegal (_why : IllegalReason) (s : State) : Host.Outcome State Fault Refusal := .next (s.raise .ill)

/-- One assertion of RST (R140): the straps are sampled and every state element takes its reset value. The moves the
agents have still to make are kept: they are not state of the block. VARIANT pins reading 3 are refused (R141). -/
def releaseReset (variantPins : BitVec 2) (greenPin : BitVec 1) (s : State) : Host.Outcome State Fault Refusal :=
  match variantOfStrap variantPins with
  | none => .refused .reservedVariantStrap
  | some v => .next ((State.resetWith v (greenOfStrap greenPin)).withInputs s.inputs)

/-- `s` with a command word as the very next move of the agent whose port its opcode belongs to. -/
def offerWord (s : State) (c : CmdWord) : State := s.withInputs (.command (homePort c) c :: s.inputs)

/-- The words offered on one port, in that port's order (R46). -/
def offeredOn (p : Port) (l : List Input) : List CmdWord :=
  l.filterMap (fun x => match x with
    | .command q c => if q = p then some c else none
    | .reset _ _ => none)

end Sys2Proof.Machine
end

