-- ==== Sys2Proof/Machine/Step.lean ====
section
/-! DEFINITION. One step of the machine: the next move of an agent, executed completely and atomically
(30_encoding.md R46). -/

namespace Sys2Proof.Machine

/-- One step. With nothing offered the block "is idle and holds its state" (R134); a command word is decoded (R56) and
executed, or discarded as illegal (R121); an assertion of RST yields the reset state (R140). -/
def step (s : State) : Host.Outcome State Fault Refusal :=
  match takeInput s with
  | none => .next s
  | some (.command p c, s') =>
    match decode p c with
    | .ok i => exec i s'
    | .error why => discardIllegal why s'
  | some (.reset v g, s') => releaseReset v g s'

/-- `s` with the word of an opcode-table row as the next move of the agent whose port the row names, before every
other move still to come (log 3). -/
def State.withFetchWord (s : State) (nbits w : Nat) : State := offerWord s (tableWord nbits w)

end Sys2Proof.Machine
end

