-- ==== Sys2Proof/Machine/Assembler.lean ====
section
/-! DEFINITION. The written form of commands (30_encoding.md R58) and the five pseudo-commands (R59). They "are notation
only and add no behaviour" (D30): everything here ends in commands of `Instr` and their words. Log 13. -/

namespace Sys2Proof.Machine

/-- `CHSET slot, n`: store an 8-bit channel value in an unpacked slot (R59, R31). -/
def chset (slot n : Nat) : Instr := .chwr slot (BitVec.ofNat 32 (n * 65536))

/-- `CHPACK slot, hi, lo, fr`: store three bytes in a packed slot (R59, R32). -/
def chpack (slot hi lo fr : Nat) : Instr :=
  .chwr slot (BitVec.ofNat 32 hi <<< 24 ||| BitVec.ofNat 32 lo <<< 16 ||| BitVec.ofNat 32 fr <<< 8)

/-- `RGB r, g, b`: three CHWR commands, not atomic as a group (R59, R40). -/
def rgb (r g b : Nat) : List Instr := [chset 0 r, chset 1 g, chset 2 b]

/-- `STROBE i, q`: intensity and rate of STROBE5 (R59). -/
def strobe (i q : Nat) : List Instr := [chset 3 i, chset 4 q]

/-- `FRAME1 dt, n`: one whole 1-D frame in index order (R59). -/
def frame1 (dt : Int) (n : Nat) : List Instr := .prep dt :: (List.range n).map (fun k => .col1 k n)

/-- A command offered on its own port. -/
def offer (i : Instr) : Input := .command (portOf i.opcode) (encode i)

/-- A number as written: decimal with an optional sign, or `0x` hexadecimal, which names the bits of a word. -/
inductive Number where
  /-- Decimal. -/
  | dec (n : Int)
  /-- Hexadecimal. -/
  | hex (n : Nat)
  deriving DecidableEq, Repr

/-- The value of a digit in a base up to 16. -/
def digitValue (base : Nat) (c : Char) : Option Nat :=
  let n := c.toNat
  let v := if 48 ≤ n ∧ n ≤ 57 then n - 48 else if 65 ≤ n ∧ n ≤ 70 then n - 55 else if 97 ≤ n ∧ n ≤ 102 then n - 87 else 16
  if v < base then some v else none

/-- The value of a digit string that continues a number already read. -/
def digitsValue (base acc : Nat) : List Char → Option Nat
  | [] => some acc
  | c :: cs =>
    match digitValue base c with
    | some d => digitsValue base (acc * base + d) cs
    | none => none

/-- A nonempty digit string. -/
def naturalOf (base : Nat) : List Char → Option Nat
  | [] => none
  | c :: cs => digitsValue base 0 (c :: cs)

/-- A number in decimal or `0x` hexadecimal (R58). -/
def numberOf : List Char → Option Number
  | '0' :: 'x' :: cs => (naturalOf 16 cs).map .hex
  | '-' :: cs => (naturalOf 10 cs).map (fun n => .dec (-n))
  | cs => (naturalOf 10 cs).map (fun n => .dec n)

/-- An unsigned operand of `bits` bits. -/
def unsignedOperand (bits : Nat) : Number → Option Nat
  | .dec n => if 0 ≤ n ∧ n < 2 ^ bits then some n.toNat else none
  | .hex n => if n < 2 ^ bits then some n else none

/-- A signed operand of `bits` bits: an integer, or the bits of a two's complement word. -/
def signedOperand (bits : Nat) : Number → Option Int
  | .dec n => if fitsSigned bits n then some n else none
  | .hex n => if n < 2 ^ bits then some (BitVec.ofNat bits n).toInt else none

/-- A blank between the parts of a line. -/
def isBlank (c : Char) : Bool := c = ' ' || c = '\t'

/-- A text without the blanks at its ends. -/
def trimBlanks (l : List Char) : List Char := ((l.dropWhile isBlank).reverse.dropWhile isBlank).reverse

/-- The parts of a text between separators: with `n` separators, `n + 1` parts. -/
def partsBetween (sep : Char) : List Char → List (List Char)
  | [] => [[]]
  | c :: cs =>
    match partsBetween sep cs with
    | [] => [[c]]
    | p :: ps => if c = sep then [] :: p :: ps else (c :: p) :: ps

/-- The commands of one mnemonic with its numbers, real (R58) or pseudo (R59); none for any other text. -/
def commandsOf (mnemonic : List Char) (operands : List Number) : Option (List Instr) :=
  match mnemonic, operands with
  | ['C', 'H', 'W', 'R'], [slot, value] => do
    return [.chwr (← unsignedOperand 3 slot) (BitVec.ofNat 32 (← unsignedOperand 32 value))]
  | ['P', 'R', 'E', 'P'], [dt] => do return [.prep (← signedOperand 32 dt)]
  | ['C', 'O', 'L', '1'], [index, count] => do
    return [.col1 (← unsignedOperand 16 index) (← unsignedOperand 16 count)]
  | ['C', 'O', 'L', '2'], [index, x, y] => do
    return [.col2 (← unsignedOperand 16 index) (← signedOperand 16 x) (← signedOperand 16 y)]
  | ['C', 'H', 'S', 'E', 'T'], [slot, n] => do return [chset (← unsignedOperand 3 slot) (← unsignedOperand 8 n)]
  | ['C', 'H', 'P', 'A', 'C', 'K'], [slot, hi, lo, fr] => do
    return [chpack (← unsignedOperand 3 slot) (← unsignedOperand 8 hi) (← unsignedOperand 8 lo) (← unsignedOperand 8 fr)]
  | ['R', 'G', 'B'], [r, g, b] => do
    return rgb (← unsignedOperand 8 r) (← unsignedOperand 8 g) (← unsignedOperand 8 b)
  | ['S', 'T', 'R', 'O', 'B', 'E'], [i, q] => do return strobe (← unsignedOperand 8 i) (← unsignedOperand 8 q)
  | ['F', 'R', 'A', 'M', 'E', '1'], [dt, n] => do return frame1 (← signedOperand 32 dt) (← unsignedOperand 16 n)
  | _, _ => none

/-- One command without its port and comment: the mnemonic, then operands separated by commas (R58). -/
def statementOf (l : List Char) : Option (List Instr) := do
  let mnemonic := l.takeWhile (fun c => !isBlank c)
  let rest := l.dropWhile (fun c => !isBlank c)
  let operands ← (partsBetween ',' rest).mapM (fun p => numberOf (trimBlanks p))
  commandsOf mnemonic operands

/-- One line (R58): `;` starts a comment, `H:` or `B:` names the port, and without it each command goes to its own. A
line of nothing but blanks and a comment is no command. -/
def assembleLine (line : List Char) : Option (List Input) :=
  let text := trimBlanks (line.takeWhile (fun c => c != ';'))
  match text with
  | [] => some []
  | 'H' :: ':' :: cs => (statementOf (trimBlanks cs)).map (fun l => l.map (fun i => .command .h (encode i)))
  | 'B' :: ':' :: cs => (statementOf (trimBlanks cs)).map (fun l => l.map (fun i => .command .b (encode i)))
  | cs => (statementOf cs).map (fun l => l.map offer)

end Sys2Proof.Machine
end

