-- ==== Sys2Proof/Machine/Formats.lean ====
section
/-! DEFINITION. The spec's own notation for fields of a word (00_scope.md R7), the real numbers that the three formats
stand for (R9), and ticks as time-units (R85). The block computes on none of these; claims compare it with them. -/

namespace Sys2Proof.Machine

/-- `C[hi:lo]`, read as an unsigned integer (R7). -/
def fieldOf (c : CmdWord) (hi lo : Nat) : Nat := c.toNat / 2 ^ lo % 2 ^ (hi + 1 - lo)

/-- `sext_N(v)`: an `N`-bit field read as a two's complement signed integer (R7). -/
def sext (bits n : Nat) : Int := if n < 2 ^ (bits - 1) then n else (n : Int) - 2 ^ bits

/-- The value of a `Q16.16` word (R9). -/
def slotValue (v : Word) : Rat := (v.toInt : Rat) / 65536

/-- The value of a `code8` (R9). -/
def codeValue (n : Code8) : Rat := (n.toNat : Rat) / 255

/-- The value of a `Q1.15` coordinate (R9). -/
def coordValue (y : Int) : Rat := (y : Rat) / 32768

/-- A number of ticks in time-units (R85). -/
def ticksInTimeUnits (n : Nat) : Rat := (n : Rat) / (Config.ticksPerTimeUnit : Rat)

end Sys2Proof.Machine
end

