-- ==== Sys2Proof/Machine/Pins.lean ====
section
/-! DEFINITION. The output pins as read-only views of the state, between commands (10_state.md R18). -/

namespace Sys2Proof.Machine

/-- `OBS[63:0] = {FS.R, FS.G, FS.B, FS.I, FS.Q, FS.E, ACC}` (R18). -/
def obs (s : State) : BitVec 64 := s.fsR ++ s.fsG ++ s.fsB ++ s.fsI ++ s.fsQ ++ s.fsE ++ s.acc

/-- The status, error and observation pins (R18, R45). -/
structure Pins where
  /-- ST_FV. -/
  stFV : Bool
  /-- ST_HOLD. -/
  stHold : Bool
  /-- ST_WAVE. -/
  stWave : Bool
  /-- ERR_ILL. -/
  errIll : Bool
  /-- ERR_SLOT. -/
  errSlot : Bool
  /-- ERR_ANY. -/
  errAny : Bool
  /-- OBS[63:0]. -/
  obs : BitVec 64
  deriving DecidableEq, Repr

/-- What a reader of the pins sees while no command is in flight (R18). -/
def pins (s : State) : Pins := ⟨s.stFV, s.stHold, s.stWave, s.errIll, s.errSlot, errAny s, obs s⟩

end Sys2Proof.Machine
end

