-- ==== Sys2Proof/Safety.lean ====
section
/-! DEFINITION. The invariant of 10_state.md R22, the duties of the agents (70_reset_and_hazards.md R150), and the parts
of the state that claims about frames and errors speak of. -/

namespace Sys2Proof.Machine

/-- The Channel Buffer is in canonical form and lists only slots that exist ("never resized", R11, R34). -/
def BufferOk (v : Variant) (m : Memory) : Prop := Memory.wf m ∧ ∀ c ∈ m, c.1 < nch v

/-- What the last PREP left in the effect registers when EFFECT_EN = 1: R22 (c) for a rate code that is not 0,
R22 (d) for rate code 0. The rate code is the one that PREP stored in FS.Q (R13). -/
def EffectOk (s : State) : Prop :=
  (s.fsQ = 0#8 → s.stHold = true ∧ s.stWave = true ∧ s.fsE = s.fsI) ∧
  (s.fsQ ≠ 0#8 → s.acc.toNat < period s.fsQ ∧ s.stHold = false ∧
    (s.stWave = true ↔ 10 * s.acc.toNat < period s.fsQ) ∧
    (s.stWave = true → s.fsE = s.fsI) ∧ (s.stWave = false → s.fsE = 0#8))

/-- The effect registers at their reset value, as they stay for ever when EFFECT_EN = 0 (R22 (e), R93). -/
def EffectZero (s : State) : Prop :=
  s.fsI = 0#8 ∧ s.fsQ = 0#8 ∧ s.fsE = 0#8 ∧ s.acc = 0#16 ∧ s.stHold = false ∧ s.stWave = false

/-- The whole Frame State and its flags at their reset value, as they stay until the first PREP (R22 (f), R117). -/
def FrameZero (s : State) : Prop := s.fsR = 0#8 ∧ s.fsG = 0#8 ∧ s.fsB = 0#8 ∧ EffectZero s

/-- The invariant of R22, with the canonical form of the Channel Buffer. Clause (a) is in the types; (g) is about two
states and is a claim of its own. -/
structure StateInv (s : State) : Prop where
  /-- The Channel Buffer is well formed. -/
  buffer : BufferOk s.variant s.ch
  /-- R22 (b). -/
  accRange : s.acc.toNat ≤ 38114
  /-- R22 (c), (d): after a PREP with EFFECT_EN = 1. -/
  effect : s.stFV = true → effectEn s.variant = true → EffectOk s
  /-- R22 (e). -/
  noEffect : effectEn s.variant = false → EffectZero s
  /-- R22 (f), R23: before the first PREP. -/
  beforeFirstPrep : s.stFV = false → FrameZero s

/-- The Frame State (R12 to R14) and the status flags (R15) agree. -/
def SameFrame (s t : State) : Prop :=
  s.fsR = t.fsR ∧ s.fsG = t.fsG ∧ s.fsB = t.fsB ∧ s.fsI = t.fsI ∧ s.fsQ = t.fsQ ∧ s.fsE = t.fsE ∧ s.acc = t.acc ∧
    s.stFV = t.stFV ∧ s.stHold = t.stHold ∧ s.stWave = t.stWave

/-- The straps agree. -/
def SameStraps (s t : State) : Prop := s.variant = t.variant ∧ s.packedGSrc = t.packedGSrc

/-- R55 (1): OP is reserved (0x0, 0x3, 0x6 to 0xF). -/
def ReservedOp (c : CmdWord) : Prop :=
  fieldOf c 63 60 ≠ 1 ∧ fieldOf c 63 60 ≠ 2 ∧ fieldOf c 63 60 ≠ 4 ∧ fieldOf c 63 60 ≠ 5

/-- R55 (2): the word arrived on the other port than its own. -/
def OnWrongPort (p : Port) (c : CmdWord) : Prop :=
  (fieldOf c 63 60 = 1 ∧ p = .h) ∨ ((fieldOf c 63 60 = 2 ∨ fieldOf c 63 60 = 4 ∨ fieldOf c 63 60 = 5) ∧ p = .b)

/-- R55 (3): a must-be-zero field of the word's format is not zero (R50 to R53). -/
def MustBeZeroBroken (c : CmdWord) : Prop :=
  fieldOf c 59 48 ≠ 0 ∨ (fieldOf c 63 60 = 1 ∧ fieldOf c 47 35 ≠ 0) ∨ (fieldOf c 63 60 = 2 ∧ fieldOf c 47 32 ≠ 0) ∨
    (fieldOf c 63 60 = 4 ∧ fieldOf c 15 0 ≠ 0)

/-- The next move, if there is one, is not an assertion of RST. -/
def NoResetNext (s : State) : Prop := ∀ v g rest, s.inputs ≠ .reset v g :: rest

/-- A word that its agent may offer without breaking a duty that has a flag (R150): a legal word on its port, and for
CHWR a slot that exists in variant `v`. -/
def Dutiful (v : Variant) : Input → Prop
  | .command p c =>
    match decode p c with
    | .ok (.chwr slot _) => slot < nch v
    | .ok _ => True
    | .error _ => False
  | .reset _ _ => False

/-- The move is a legal PREP on port H. -/
def IsPrep : Input → Prop
  | .command p c => ∃ dt, decode p c = .ok (.prep dt)
  | .reset _ _ => False

/-- The move is an assertion of RST. -/
def IsReset : Input → Prop
  | .command _ _ => False
  | .reset _ _ => True

/-- The move is an assertion of RST with the reserved strap value (R141). -/
def ReservedStrap : Input → Prop
  | .command _ _ => False
  | .reset v _ => v = 3#2

/-- The response of a colour command from a given state, and of every other command none (R49). -/
def responseTo (i : Instr) (s : State) : List Response :=
  match i with
  | .chwr _ _ => []
  | .prep _ => []
  | .col1 index count => [responseWord (band1 s.variant index count) (compose (band1 s.variant index count) s)]
  | .col2 _ _ y => [responseWord (band2 s.variant y) (compose (band2 s.variant y) s)]

/-- `n` steps of the machine from `s` all answer a next state, the last one `t`. -/
def RunsTo (n : Nat) (s t : State) : Prop := Sys2Proof.core.run n s = .next t

end Sys2Proof.Machine
end

