-- ==== Sys2Proof/Certificates/Slice0/Obligations.lean ====
section
/-! DEFINITION. The statements for the provers, each from the numbered rules of spec/ that its docstring names. In every
statement `inputs` is the model's own list of the agents' moves (log 2), and `responses` its own record of what port O
emitted (log 4); a statement about them says what the block does with a move, and what it emits. -/

open Sys2Proof Sys2Proof.Machine

/-! ### Command words -/

/-- R54, R56: decoding the word of a well-formed command, on the command's own port, gives the command back. -/
def Obligations.DecodeInvertsEncode : Prop :=
  ∀ i : Instr, WellFormed i → decode (portOf i.opcode) (encode i) = .ok i

/-- R54 to R56: a word that decodes is the word of a well-formed command, offered on that command's port. -/
def Obligations.EncodeInvertsDecode : Prop :=
  ∀ (p : Port) (c : CmdWord) (i : Instr), decode p c = .ok i → WellFormed i ∧ p = portOf i.opcode ∧ encode i = c

/-- R56: the decoder on every word and port, field by field in the notation of R7; its mask and match form; and two
different words never decode to the same command. -/
def Obligations.DecoderFollowsTheFieldTables : Prop :=
  ∀ (p : Port) (c : CmdWord),
    (∀ slot value, decode p c = .ok (.chwr slot value) ↔
      fieldOf c 63 60 = 1 ∧ p = .b ∧ fieldOf c 59 48 = 0 ∧ fieldOf c 47 35 = 0 ∧
        slot = fieldOf c 34 32 ∧ value.toNat = fieldOf c 31 0) ∧
    (∀ dt, decode p c = .ok (.prep dt) ↔
      fieldOf c 63 60 = 2 ∧ p = .h ∧ fieldOf c 59 48 = 0 ∧ fieldOf c 47 32 = 0 ∧ dt = sext 32 (fieldOf c 31 0)) ∧
    (∀ index count, decode p c = .ok (.col1 index count) ↔
      fieldOf c 63 60 = 4 ∧ p = .h ∧ fieldOf c 59 48 = 0 ∧ fieldOf c 15 0 = 0 ∧
        index = fieldOf c 47 32 ∧ count = fieldOf c 31 16) ∧
    (∀ index x y, decode p c = .ok (.col2 index x y) ↔
      fieldOf c 63 60 = 5 ∧ p = .h ∧ fieldOf c 59 48 = 0 ∧
        index = fieldOf c 47 32 ∧ x = sext 16 (fieldOf c 31 16) ∧ y = sext 16 (fieldOf c 15 0)) ∧
    ((∃ slot value, decode p c = .ok (.chwr slot value)) ↔ c &&& 0xFFFFFFF800000000#64 = 0x1000000000000000#64 ∧ p = .b) ∧
    ((∃ dt, decode p c = .ok (.prep dt)) ↔ c &&& 0xFFFFFFFF00000000#64 = 0x2000000000000000#64 ∧ p = .h) ∧
    ((∃ index count, decode p c = .ok (.col1 index count)) ↔ c &&& 0xFFFF00000000FFFF#64 = 0x4000000000000000#64 ∧ p = .h) ∧
    ((∃ index x y, decode p c = .ok (.col2 index x y)) ↔ c &&& 0xFFFF000000000000#64 = 0x5000000000000000#64 ∧ p = .h) ∧
    (∀ c' i, decode p c = .ok i → decode p c' = .ok i → c = c')

/-- R55, R121, R122: which words are illegal, the order in which the three reasons are tested, and what the block does
with an illegal word, and with a legal CHWR whose slot does not exist: one sticky flag, at its cause code, and nothing else. -/
def Obligations.IllegalWordsSetOnlyTheirFlag : Prop :=
  ∀ (s : State) (p : Port) (c : CmdWord) (rest : List Input), s.inputs = .command p c :: rest →
    (ReservedOp c → decode p c = .error .reservedOpcode) ∧
    (¬ ReservedOp c → OnWrongPort p c → decode p c = .error .wrongPort) ∧
    (¬ ReservedOp c → ¬ OnWrongPort p c → MustBeZeroBroken c → decode p c = .error .nonzeroMustBeZero) ∧
    (¬ ReservedOp c → ¬ OnWrongPort p c → ¬ MustBeZeroBroken c → ∃ i, decode p c = .ok i) ∧
    (ReservedOp c ∨ OnWrongPort p c ∨ MustBeZeroBroken c →
      ∃ t, step s = .next t ∧ t = { s with inputs := rest, errIll := true } ∧ (errorFlags t).getLsbD 0 = true) ∧
    (fieldOf c 63 60 = 1 → ¬ OnWrongPort p c → ¬ MustBeZeroBroken c → nch s.variant ≤ fieldOf c 34 32 →
      ∃ t, step s = .next t ∧ t = { s with inputs := rest, errSlot := true } ∧ (errorFlags t).getLsbD 1 = true)

/-- 95_test_vectors.md, R50 to R53: words written out in the spec decode to the commands it says they are. -/
def Obligations.SpecWordsDecode : Prop :=
  decode .b 0x10000001FF800000#64 = .ok (.chwr 1 0xFF800000#32) ∧
  decode .h 0x20000000FFFFFFFB#64 = .ok (.prep (-5)) ∧
  decode .h 0x4000003200640000#64 = .ok (.col1 50 100) ∧
  decode .h 0x500000074000F001#64 = .ok (.col2 7 16384 (-4095)) ∧
  decode .h 0x1000000000000001#64 = .error .wrongPort ∧
  decode .b 0x1000000800000001#64 = .error .nonzeroMustBeZero ∧
  decode .h 0xFFFFFFFFFFFFFFFF#64 = .error .reservedOpcode

/-- R46, R56: when the next move is a word that decodes to a command, one step is that command's `exec` from the state
with the move taken. -/
def Obligations.StepRunsDecodedInstruction : Prop :=
  ∀ (s : State) (p : Port) (c : CmdWord) (rest : List Input) (i : Instr),
    s.inputs = .command p c :: rest → decode p c = .ok i → step s = exec i { s with inputs := rest }

/-- R134: with no move offered, the block is idle and holds its state. That there is an idle step is the model's choice (log 8). -/
def Obligations.IdleBlockHoldsItsState : Prop := ∀ s : State, s.inputs = [] → step s = .next s

/-! ### Straps, reset, stopping -/

/-- R6: the derived columns of the variant table. -/
def Obligations.VariantTable : Prop :=
  (nch .pass3 = 3 ∧ effectEn .pass3 = false ∧ regionEn .pass3 = false ∧ isPacked .pass3 = false) ∧
  (nch .strobe5 = 5 ∧ effectEn .strobe5 = true ∧ regionEn .strobe5 = true ∧ isPacked .strobe5 = false) ∧
  (nch .packed2 = 2 ∧ effectEn .packed2 = true ∧ regionEn .packed2 = true ∧ isPacked .packed2 = true)

/-- R23: after reset every state element is zero, whatever the straps; a PREP then prepares black, held at brightness 0
where EFFECT_EN = 1, and a colour command answers black with its band bit. -/
def Obligations.ResetLeavesEverythingZero : Prop :=
  ∀ (v : Variant) (g : GreenSource), ∃ s, s = State.resetWith v g ∧
    (∀ a, s.ch.read a = 0#32) ∧ s.fsR = 0#8 ∧ s.fsG = 0#8 ∧ s.fsB = 0#8 ∧ s.fsI = 0#8 ∧ s.fsQ = 0#8 ∧ s.fsE = 0#8 ∧
    s.acc = 0#16 ∧ s.stFV = false ∧ s.stHold = false ∧ s.stWave = false ∧ s.errIll = false ∧ s.errSlot = false ∧
    (∀ dt, exec (.prep dt) s = .next { s with stFV := true, stHold := effectEn v, stWave := effectEn v }) ∧
    (∀ index count, exec (.col1 index count) s =
      .next { s with responses := [BitVec.ofBool (band1 v index count) ++ 0#24] }) ∧
    (∀ index x y, exec (.col2 index x y) s = .next { s with responses := [BitVec.ofBool (band2 v y) ++ 0#24] })

/-- R140: an assertion of RST with the pins at 0, 1 or 2 yields the reset state of the variant and the setting the pins
select, whatever the state was; the moves still to come stay. The last clause is the model's own field (log 6). -/
def Obligations.ResetSamplesTheStraps : Prop :=
  ∀ (s : State) (v : BitVec 2) (g : BitVec 1) (rest : List Input), s.inputs = .reset v g :: rest → v ≠ 3#2 →
    ∃ w, step s = .next { State.resetWith w (if g = 0#1 then .green else .red) with inputs := rest } ∧
      (w = .pass3 ↔ v = 0#2) ∧ (w = .strobe5 ↔ v = 1#2) ∧ (w = .packed2 ↔ v = 2#2)

/-- R141: strap value 3 is refused, and the type of VARIANT has three values. -/
def Obligations.ReservedStrapIsRefused : Prop :=
  (∀ (s : State) (g : BitVec 1) (rest : List Input), s.inputs = .reset 3#2 g :: rest →
    step s = .refused .reservedVariantStrap) ∧
  ∀ v : Variant, v = .pass3 ∨ v = .strobe5 ∨ v = .packed2

/-- R149, R123, R141: no step faults, and a step is refused exactly when the next move is a reset with the reserved strap
value: the block itself never stops. -/
def Obligations.StepStopsOnlyAtReservedStrap : Prop :=
  ∀ s : State, (∀ f, step s ≠ .fault f) ∧
    (∀ r, step s = .refused r ↔ r = .reservedVariantStrap ∧ ∃ g rest, s.inputs = .reset 3#2 g :: rest)

/-- R11, R18, R140: the straps, and with them the number of slots, never change but at reset. -/
def Obligations.StrapsChangeOnlyAtReset : Prop :=
  ∀ s t : State, NoResetNext s → step s = .next t →
    t.variant = s.variant ∧ t.packedGSrc = s.packedGSrc ∧ nch t.variant = nch s.variant

/-! ### Decoding slot words -/

/-- R66: `dec8` is the floor of the slot's value clamped to 0 to 255, equivalently the case analysis on the bits, and the
fraction bits never change it. -/
def Obligations.Dec8FloorsThenClamps : Prop :=
  ∀ v : Word,
    ((dec8 v).toNat : Int) = max 0 (min 255 ⌊slotValue v⌋) ∧
    dec8 v = (if v.getLsbD 31 then 0#8 else if v.extractLsb' 24 7 ≠ 0#7 then 255#8 else v.extractLsb' 16 8) ∧
    ∀ f : BitVec 16, dec8 (v.extractLsb' 16 16 ++ f) = dec8 v

/-- R67: on channel values `dec8` is the identity, hence monotonic and injective, and on all words it is monotonic in
the signed value. -/
def Obligations.Dec8InvertsChannelEncoding : Prop :=
  (∀ v : Nat, v ≤ 255 → (dec8 (BitVec.ofNat 32 (v * 65536))).toNat = v) ∧
  (∀ v w : Nat, v ≤ w → w ≤ 255 →
    (dec8 (BitVec.ofNat 32 (v * 65536))).toNat ≤ (dec8 (BitVec.ofNat 32 (w * 65536))).toNat) ∧
  (∀ v w : Nat, v ≤ 255 → w ≤ 255 → dec8 (BitVec.ofNat 32 (v * 65536)) = dec8 (BitVec.ofNat 32 (w * 65536)) → v = w) ∧
  ∀ v w : Word, v.toInt ≤ w.toInt → (dec8 v).toNat ≤ (dec8 w).toNat

/-- R68: the two integer bytes of a packed slot are bit slices, with no clamp, and come back from a word built of bytes. -/
def Obligations.PackedIntegerBytesRoundTrip : Prop :=
  (∀ v : Word, (hiByte v).toNat = v.toNat / 2 ^ 24 ∧ (loByte v).toNat = v.toNat / 2 ^ 16 % 256) ∧
  (∀ (h l : Code8) (f : BitVec 16), hiByte (h ++ l ++ f) = h ∧ loByte (h ++ l ++ f) = l) ∧
  hiByte 0xFF00FF00#32 = 255#8

/-- R69: the third byte is `V[15:8]` plus `V[7]` modulo 256, the same for `V` read as signed, exact for a word built of
bytes, and its lost carry does not reach the second byte. -/
def Obligations.PackedThirdByteRounds : Prop :=
  (∀ v : Word, (frByte v).toNat = (v.toNat + 128) / 256 % 256 ∧
    frByte v = v.extractLsb' 8 8 + (if v.getLsbD 7 then 1#8 else 0#8) ∧
    ((frByte v).toNat : Int) = (v.toInt + 128) / 256 % 256) ∧
  (∀ h l f : Code8, frByte (h ++ l ++ f ++ 0#8) = f) ∧
  (frByte 0x1234FF80#32 = 0#8 ∧ loByte 0x1234FF80#32 = 0x34#8 ∧ frByte 0x1234FF7F#32 = 255#8 ∧ frByte 0xFFFFFFFF#32 = 0#8)

/-- R36, R70: which slot and which byte of it each code comes from, by variant. -/
def Obligations.SlotMeaningsByVariant : Prop :=
  ∀ ch : Memory,
    decodeChannels .pass3 ch = ⟨dec8 (ch.read 0), dec8 (ch.read 1), dec8 (ch.read 2), 0#8, 0#8⟩ ∧
    decodeChannels .strobe5 ch =
      ⟨dec8 (ch.read 0), dec8 (ch.read 1), dec8 (ch.read 2), dec8 (ch.read 3), dec8 (ch.read 4)⟩ ∧
    decodeChannels .packed2 ch =
      ⟨hiByte (ch.read 0), loByte (ch.read 0), frByte (ch.read 0), hiByte (ch.read 1), loByte (ch.read 1)⟩

/-- R31, R32, R59: CHSET stores `n * 65536`, which decodes to `n`; CHPACK stores its three bytes, which decode to
themselves; the other pseudo-commands are the command lists of their expansion. -/
def Obligations.PseudoCommandsStoreTheirOperands : Prop :=
  (∀ slot n : Nat, n ≤ 255 → ∃ v : Word, chset slot n = .chwr slot v ∧ v.toNat = n * 65536 ∧ (dec8 v).toNat = n) ∧
  (∀ (slot : Nat) (h l f : Code8), ∃ v : Word, chpack slot h.toNat l.toNat f.toNat = .chwr slot v ∧
    v = h ++ l ++ f ++ 0#8 ∧ hiByte v = h ∧ loByte v = l ∧ frByte v = f) ∧
  (∀ r g b : Nat, rgb r g b = [chset 0 r, chset 1 g, chset 2 b]) ∧
  (∀ i q : Nat, strobe i q = [chset 3 i, chset 4 q]) ∧
  ∀ (dt : Int) (n : Nat), (frame1 dt n).length = n + 1 ∧ (frame1 dt n)[0]? = some (.prep dt) ∧
    ∀ k, k < n → (frame1 dt n)[k + 1]? = some (.col1 k n)

/-! ### CHWR -/

/-- R65, R34, R35: CHWR to a slot that exists completes: that slot reads as the value, every other slot reads as before,
the canonical form (log 5) is kept, and nothing else changes. -/
def Obligations.ChwrWritesExactlyOneSlot : Prop :=
  ∀ (s : State) (slot : Nat) (value : Word), Memory.wf s.ch → slot < nch s.variant →
    ∃ t, exec (.chwr slot value) s = .next t ∧ t = { s with ch := t.ch } ∧ Memory.wf t.ch ∧
      t.ch.read slot = value ∧ ∀ a, a ≠ slot → t.ch.read a = s.ch.read a

/-- R65, R122: CHWR to a slot that does not exist sets ERR.SLOT and changes nothing else. -/
def Obligations.ChwrToMissingSlotSetsSlotFlag : Prop :=
  ∀ (s : State) (slot : Nat) (value : Word), nch s.variant ≤ slot →
    exec (.chwr slot value) s = .next { s with errSlot := true }

/-- R11, R21: a slot's content changes only by a legal CHWR on port B that names it, and then becomes the value of that
command, or by reset. -/
def Obligations.OnlyChwrChangesSlots : Prop :=
  ∀ (s t : State) (a : Nat), Memory.wf s.ch → NoResetNext s → step s = .next t → t.ch.read a ≠ s.ch.read a →
    ∃ c rest value, s.inputs = .command .b c :: rest ∧ decode .b c = .ok (.chwr a value) ∧ a < nch s.variant ∧
      t.ch.read a = value

/-! ### PREP and the effect -/

/-- R72, R93: in PASS3 a PREP completes, decodes the three colour slots, sets ST.FV and changes nothing else. -/
def Obligations.PrepInPassThrough : Prop :=
  ∀ (s : State) (dt : Int), s.variant = .pass3 →
    exec (.prep dt) s = .next { s with fsR := dec8 (s.ch.read 0), fsG := dec8 (s.ch.read 1), fsB := dec8 (s.ch.read 2), stFV := true }

/-- R93: with EFFECT_EN = 0 the effect registers keep their reset value 0 over any run without a reset, and DT is ignored. -/
def Obligations.PassThroughNeverTouchesTheEffect : Prop :=
  (∀ (v : Variant) (g : GreenSource), EffectZero (State.resetWith v g)) ∧
  (∀ (n : Nat) (s t : State), effectEn s.variant = false → EffectZero s → (∀ x ∈ s.inputs.take n, ¬ IsReset x) →
    RunsTo n s t → EffectZero t) ∧
  ∀ (s : State) (d d' : Int), effectEn s.variant = false → exec (.prep d) s = exec (.prep d') s

/-- R72, R92, R89, R91: with EFFECT_EN = 1 a PREP completes, with the effect step of R92 branch by branch, and changes
nothing outside the Frame State and its flags. -/
def Obligations.PrepRunsTheEffectStep : Prop :=
  ∀ (s : State) (dt : Int), effectEn s.variant = true →
    ∃ t d, exec (.prep dt) s = .next t ∧ d = decodeChannels s.variant s.ch ∧
      t = { s with fsR := d.r, fsG := d.g, fsB := d.b, fsI := d.i, fsQ := d.q, fsE := t.fsE, acc := t.acc, stHold := t.stHold, stWave := t.stWave, stFV := true } ∧
      (if d.q = 0#8 then t.acc = s.acc ∧ t.stHold = true ∧ t.stWave = true ∧ t.fsE = d.i
       else (t.acc.toNat : Int) = (s.acc.toNat + max dt 0) % (38250 - 135 * (d.q.toNat : Int)) ∧ t.stHold = false ∧
        (t.stWave = true ↔ 10 * (t.acc.toNat : Int) < 38250 - 135 * (d.q.toNat : Int)) ∧
        t.fsE = if t.stWave then d.i else 0#8)

/-- R87: rate code 0 holds the effect on whatever the time, with ACC kept; and which slot contents hold, by variant. -/
def Obligations.RateZeroHoldsTheEffectOn : Prop :=
  ∀ (s : State) (dt : Int), effectEn s.variant = true →
    ((decodeChannels s.variant s.ch).q = 0#8 → ∃ t, exec (.prep dt) s = .next t ∧ t.acc = s.acc ∧ t.stHold = true ∧
      t.stWave = true ∧ t.fsE = (decodeChannels s.variant s.ch).i) ∧
    (s.variant = .strobe5 → ((decodeChannels s.variant s.ch).q = 0#8 ↔ slotValue (s.ch.read 4) < 1)) ∧
    (s.variant = .packed2 → ((decodeChannels s.variant s.ch).q = 0#8 ↔ (s.ch.read 1).toNat / 2 ^ 16 % 256 = 0))

/-- R88: the period of each rate code from 1 to 255, as the linear map onto [0.015, 0.0015] time-units; it is strictly
decreasing and lies in 3,825 to 38,115. -/
def Obligations.PeriodIsTheLinearMap : Prop :=
  (∀ q : Code8, q ≠ 0#8 → (period q : Int) = 38250 - 135 * (q.toNat : Int) ∧ (period q : Int) = 45 * (850 - 3 * (q.toNat : Int)) ∧
    ticksInTimeUnits (period q) = 15 / 1000 - codeValue q * (135 / 10000) ∧ 3825 ≤ period q ∧ period q ≤ 38115) ∧
  (∀ q r : Code8, q ≠ 0#8 → q.toNat < r.toNat → period r < period q) ∧
  period 255#8 = 3825 ∧ period 1#8 = 38115

/-- R90: the waveform bit is on for a tenth of the period: `ceil(P(q) / 10)` of its tick positions. -/
def Obligations.OnWindowIsATenthOfThePeriod : Prop :=
  (∀ (q : Code8) (a : BitVec 16), q ≠ 0#8 → (waveFlag q a = true ↔ (a.toNat : Rat) / period q < 1 / 10)) ∧
  (∀ a : BitVec 16, waveFlag 0#8 a = true) ∧
  ∀ q : Code8, q ≠ 0#8 →
    (List.range (period q)).countP (fun a => waveFlag q (BitVec.ofNat 16 a)) = (period q + 9) / 10

/-- R86: a negative elapsed time is used as zero, a zero one leaves ACC unless the period has shrunk below it, and no
elapsed time raises an error. -/
def Obligations.NegativeElapsedTimeCountsAsZero : Prop :=
  ∀ (s : State) (dt : Int),
    (dtEff dt : Int) = (if dt < 0 then 0 else dt) ∧ (dt ≤ 2147483647 → dtEff dt ≤ 2147483647) ∧
    (dt < 0 → exec (.prep dt) s = exec (.prep 0) s) ∧
    (∃ t, exec (.prep dt) s = .next t ∧ t.errIll = s.errIll ∧ t.errSlot = s.errSlot) ∧
    (s.acc.toNat < period (decodeChannels s.variant s.ch).q → ∃ t, exec (.prep 0) s = .next t ∧ t.acc = s.acc)

/-- R94: over a run of PREPs with the same slots and a rate code that is not 0, ACC is the cumulative elapsed time modulo
the period, and the effect brightness is the intensity exactly in the first tenth of the period; and adding a whole
period to the elapsed time of one PREP changes nothing. -/
def Obligations.EffectIsPeriodicAtConstantRate : Prop :=
  (∀ (s : State) (ds : List Nat) (rest : List Input) (d : Channels), d = decodeChannels s.variant s.ch →
    effectEn s.variant = true → d.q ≠ 0#8 → ds ≠ [] → (∀ x ∈ ds, x < 2 ^ 31) →
    s.inputs = ds.map (fun x : Nat => offer (.prep (x : Int))) ++ rest →
    ∃ t, RunsTo ds.length s t ∧ t.acc.toNat = (s.acc.toNat + ds.sum) % period d.q ∧
      t.fsE = (if 10 * t.acc.toNat < period d.q then d.i else 0#8) ∧ t.ch = s.ch ∧ t.inputs = rest ∧
      t.responses = s.responses ∧ t.errIll = s.errIll ∧ t.errSlot = s.errSlot) ∧
  ∀ (s : State) (dt : Int), 0 ≤ dt → effectEn s.variant = true → (decodeChannels s.variant s.ch).q ≠ 0#8 →
    exec (.prep (dt + period (decodeChannels s.variant s.ch).q)) s = exec (.prep dt) s

/-- R95: over a run of PREPs in hold ACC does not move and the brightness is the intensity, whatever the elapsed times; and
the first PREP after reset that is not in hold shows the effect when its elapsed time is below a tenth of the period. -/
def Obligations.HoldKeepsThePhase : Prop :=
  (∀ (s : State) (ds : List Int) (rest : List Input), effectEn s.variant = true →
    (decodeChannels s.variant s.ch).q = 0#8 → ds ≠ [] → (∀ x ∈ ds, -2147483648 ≤ x ∧ x ≤ 2147483647) →
    s.inputs = ds.map (fun x => offer (.prep x)) ++ rest →
    ∃ t, RunsTo ds.length s t ∧ t.acc = s.acc ∧ t.fsE = (decodeChannels s.variant s.ch).i ∧ t.stHold = true ∧
      t.stWave = true ∧ t.ch = s.ch ∧ t.inputs = rest) ∧
  ∀ (s : State) (dt : Int), effectEn s.variant = true → s.acc = 0#16 → 0 ≤ dt →
    (decodeChannels s.variant s.ch).q ≠ 0#8 → 10 * dt < period (decodeChannels s.variant s.ch).q →
    ∃ t, exec (.prep dt) s = .next t ∧ t.stWave = true ∧ (t.acc.toNat : Int) = dt

/-- R14, R130: ACC moves only by reset, or by a legal PREP with EFFECT_EN = 1 and a rate code that is not 0. -/
def Obligations.PhaseMovesOnlyOnPrep : Prop :=
  ∀ s t : State, NoResetNext s → step s = .next t → t.acc ≠ s.acc →
    effectEn s.variant = true ∧ (decodeChannels s.variant s.ch).q ≠ 0#8 ∧
      ∃ c rest dt, s.inputs = .command .h c :: rest ∧ decode .h c = .ok (.prep dt)

/-- R15, R22 (f): over a run without a reset from a state with ST.FV = 0, ST.FV is 1 exactly when a PREP was executed. -/
def Obligations.FrameValidMeansAPrepRan : Prop :=
  ∀ (n : Nat) (s t : State), s.stFV = false → (∀ x ∈ s.inputs.take n, ¬ IsReset x) → RunsTo n s t →
    (t.stFV = true ↔ ∃ x ∈ s.inputs.take n, IsPrep x)

/-! ### Region and colour -/

/-- R101: the 1-D band is the source's predicate over the rationals, a pixel on a band edge is outside, and the band at
COUNT = 100 is INDEX 38 to 62, at COUNT = 8 INDEX 4 alone. -/
def Obligations.Band1IsTheCentredQuarter : Prop :=
  ∀ (v : Variant) (index count : Nat),
    (band1 v index count = true ↔ regionEn v = true ∧ 3 * count < 8 * index ∧ 8 * index < 5 * count) ∧
    (0 < count → (band1 v index count = true ↔ regionEn v = true ∧ |(index : Rat) / count - 1 / 2| < 1 / 8)) ∧
    (8 * index = 3 * count ∨ 8 * index = 5 * count → band1 v index count = false) ∧
    (regionEn v = true → (band1 v index 100 = true ↔ 38 ≤ index ∧ index ≤ 62) ∧ (band1 v index 8 = true ↔ index = 4))

/-- R102: the 2-D band is the source's predicate on the coordinate that the word stands for. -/
def Obligations.Band2IsTheCentredBand : Prop :=
  ∀ (v : Variant) (y : Int),
    (band2 v y = true ↔ regionEn v = true ∧ -4096 < y ∧ y < 4096) ∧
    (band2 v y = true ↔ regionEn v = true ∧ |coordValue y| < 1 / 8)

/-- R105: the laws of both predicates. -/
def Obligations.BandLaws : Prop :=
  ∀ v : Variant,
    (regionEn v = true →
      (∀ index count, 0 < count → 2 * index = count → band1 v index count = true) ∧
      (∀ index count, 8 * index ≤ 3 * count ∨ 5 * count ≤ 8 * index → band1 v index count = false) ∧
      band2 v 0 = true ∧
      ∀ y, y ≤ -4096 ∨ 4096 ≤ y → band2 v y = false) ∧
    (regionEn v = false → (∀ index count, band1 v index count = false) ∧ ∀ y, band2 v y = false)

/-- R103: an index at or above the count, and a count of 0, give the base colour and set no flag; and the corner operands. -/
def Obligations.MalformedDescriptorsGetTheBaseColour : Prop :=
  (∀ (s : State) (index count : Nat), count ≤ index →
    exec (.col1 index count) s = .next { s with responses := s.responses ++ [responseWord false (baseColour s)] }) ∧
  ∀ v : Variant, band1 v 0 1 = false ∧ band1 v 0 2 = false ∧ band1 v 65535 65535 = false ∧
    (regionEn v = true → band1 v 1 2 = true ∧ band1 v 32768 65535 = true)

/-- R104: INDEX and X of COL2 do not matter, and a Y outside [-0.5, 0.5] is in the base band, the most negative word too. -/
def Obligations.Col2IgnoresIndexAndX : Prop :=
  (∀ (s : State) (index index' : Nat) (x x' y : Int), exec (.col2 index x y) s = exec (.col2 index' x' y) s) ∧
  (∀ (v : Variant) (y : Int), y < -16384 ∨ 16384 < y → band2 v y = false) ∧
  ∀ v : Variant, band2 v (-32768) = false

/-- R113: COL1 completes with one response, the word of its band bit and colour, and changes nothing else. -/
def Obligations.Col1Responds : Prop :=
  ∀ (s : State) (index count : Nat), ∃ r : Response,
    exec (.col1 index count) s = .next { s with responses := s.responses ++ [r] } ∧
    r = (if regionEn s.variant = true ∧ 3 * count < 8 * index ∧ 8 * index < 5 * count
      then 1#1 ++ s.fsE ++ s.fsE ++ s.fsE
      else 0#1 ++ s.fsR ++ (if s.variant = .packed2 ∧ s.packedGSrc = .red then s.fsR else s.fsG) ++ s.fsB)

/-- R114: COL2 completes with one response, the word of its band bit and colour, and changes nothing else. -/
def Obligations.Col2Responds : Prop :=
  ∀ (s : State) (index : Nat) (x y : Int), ∃ r : Response,
    exec (.col2 index x y) s = .next { s with responses := s.responses ++ [r] } ∧
    r = (if regionEn s.variant = true ∧ -4096 < y ∧ y < 4096
      then 1#1 ++ s.fsE ++ s.fsE ++ s.fsE
      else 0#1 ++ s.fsR ++ (if s.variant = .packed2 ∧ s.packedGSrc = .red then s.fsR else s.fsG) ++ s.fsB)

/-- R49: a colour command emits exactly one response, after all earlier ones, every other command none; and the layout
of the response word. -/
def Obligations.ResponsesAndTheirLayout : Prop :=
  (∀ (i : Instr) (s t : State), exec i s = .next t →
    ∃ l, t.responses = s.responses ++ l ∧ l.length = if i.opcode = .col1 ∨ i.opcode = .col2 then 1 else 0) ∧
  ∀ (band : Bool) (c : Rgb), (responseWord band c).getLsbD 24 = band ∧ (responseWord band c).extractLsb' 16 8 = c.r ∧
    (responseWord band c).extractLsb' 8 8 = c.g ∧ (responseWord band c).extractLsb' 0 8 = c.b

/-- R116: in PASS3 every COL1 and COL2 answers the decoded base colour with band 0, and the source's scenario. -/
def Obligations.PassThroughShowsOneColour : Prop :=
  ∀ s : State, s.variant = .pass3 →
    (∀ index count, exec (.col1 index count) s =
      .next { s with responses := s.responses ++ [0#1 ++ s.fsR ++ s.fsG ++ s.fsB] }) ∧
    (∀ index x y, exec (.col2 index x y) s =
      .next { s with responses := s.responses ++ [0#1 ++ s.fsR ++ s.fsG ++ s.fsB] }) ∧
    (s.ch.read 0 = 0x00800000#32 → s.ch.read 1 = 0x00400000#32 → s.ch.read 2 = 0x00200000#32 → ∀ dt, ∃ t,
      exec (.prep dt) s = .next t ∧
      (∀ index count, exec (.col1 index count) t = .next { t with responses := t.responses ++ [0x0804020#25] }) ∧
      ∀ index x y, exec (.col2 index x y) t = .next { t with responses := t.responses ++ [0x0804020#25] })

/-- R117: before the first PREP a colour command answers black with its band bit, and no flag is set. -/
def Obligations.ColourBeforeFirstPrepIsBlack : Prop :=
  ∀ s : State, StateInv s → s.stFV = false →
    (∀ index count, exec (.col1 index count) s =
      .next { s with responses := s.responses ++ [BitVec.ofBool (band1 s.variant index count) ++ 0#24] }) ∧
    ∀ index x y, exec (.col2 index x y) s =
      .next { s with responses := s.responses ++ [BitVec.ofBool (band2 s.variant y) ++ 0#24] }

/-- R112: outside PACKED2 the strap PACKED_G_SRC has no effect on any command, and in every variant none but on responses. -/
def Obligations.GreenStrapOnlyReachesPackedResponses : Prop :=
  ∀ (i : Instr) (s t : State) (g : GreenSource), exec i s = .next t →
    ∃ u, exec i { s with packedGSrc := g } = .next u ∧
      u = { t with packedGSrc := g, responses := u.responses } ∧
      (s.variant ≠ .packed2 → u.responses = t.responses)

/-! ### Runs and whole-machine rules -/

/-- R22, R11: every step keeps the invariant, from every state that has it. Its clause on the canonical form is the
model's own (log 5). -/
def Obligations.InvariantKeptByEveryStep : Prop :=
  ∀ s t : State, StateInv s → step s = .next t → StateInv t

/-- R22, R23: the state after reset has the invariant, whatever the straps, so also with those of `State.reset` (log 1). -/
def Obligations.ResetHasTheInvariant : Prop :=
  (∀ (v : Variant) (g : GreenSource), StateInv (State.resetWith v g)) ∧ StateInv State.reset

/-- R127, R16: an error flag, once set, stays set until reset. -/
def Obligations.ErrorFlagsAreSticky : Prop :=
  ∀ s t : State, NoResetNext s → step s = .next t →
    (s.errIll = true → t.errIll = true) ∧ (s.errSlot = true → t.errSlot = true)

/-- R125: one command raises at most one cause; only a legal CHWR is tested for SLOT; and the illegality tests come first. -/
def Obligations.AtMostOneCausePerCommand : Prop :=
  (∀ s t : State, NoResetNext s → step s = .next t →
    ¬ (t.errIll ≠ s.errIll ∧ t.errSlot ≠ s.errSlot) ∧
    (t.errSlot ≠ s.errSlot → ∃ c rest slot value, s.inputs = .command .b c :: rest ∧
      decode .b c = .ok (.chwr slot value) ∧ nch s.variant ≤ slot)) ∧
  ∀ (s : State) (p : Port) (c : CmdWord) (rest : List Input), s.inputs = .command p c :: rest → fieldOf c 63 60 = 1 →
    p = .h ∨ fieldOf c 47 35 ≠ 0 → step s = .next { s with inputs := rest, errIll := true }

/-- R126, R127, R121, R122, R140: the error flags gate nothing: from the same state with other error flags, a step does the
same but for them, each flag ending as it was or-ed with what the step raises, ILL for a word that does not decode and
SLOT for a legal CHWR to a slot that does not exist; and a reset ends the same state, its error flags 0. -/
def Obligations.ErrorFlagsGateNothing : Prop :=
  ∀ (s t : State) (ill slot : Bool), step s = .next t →
    (NoResetNext s → ∃ raisesIll raisesSlot : Bool,
      (raisesIll = true ↔ ∃ p c rest why, s.inputs = .command p c :: rest ∧ decode p c = .error why) ∧
      (raisesSlot = true ↔ ∃ c rest a value, s.inputs = .command .b c :: rest ∧ decode .b c = .ok (.chwr a value) ∧
        nch s.variant ≤ a) ∧
      t.errIll = (s.errIll || raisesIll) ∧ t.errSlot = (s.errSlot || raisesSlot) ∧
      step { s with errIll := ill, errSlot := slot } =
        .next { t with errIll := ill || raisesIll, errSlot := slot || raisesSlot }) ∧
    (¬ NoResetNext s → step { s with errIll := ill, errSlot := slot } = .next t ∧ t.errIll = false ∧ t.errSlot = false)

/-- R129: rights are by port: no word on port B changes the Frame State or emits a response, and no word on port H changes
the Channel Buffer or ERR.SLOT. -/
def Obligations.PortsHaveFixedRights : Prop :=
  ∀ (s t : State) (p : Port) (c : CmdWord) (rest : List Input), s.inputs = .command p c :: rest → step s = .next t →
    (p = .b → SameFrame s t ∧ t.responses = s.responses) ∧
    (p = .h → (∀ a, t.ch.read a = s.ch.read a) ∧ t.errSlot = s.errSlot)

/-- R21: who writes each element: the frame of every command. -/
def Obligations.CommandsWriteOnlyTheirElements : Prop :=
  (∀ (s t : State) (slot : Nat) (value : Word), exec (.chwr slot value) s = .next t →
    SameFrame s t ∧ SameStraps s t ∧ t.errIll = s.errIll ∧ t.inputs = s.inputs ∧ t.responses = s.responses ∧
    (∀ a, a ≠ slot → t.ch.read a = s.ch.read a) ∧ (slot < nch s.variant → t.errSlot = s.errSlot) ∧
    (nch s.variant ≤ slot → ∀ a, t.ch.read a = s.ch.read a)) ∧
  (∀ (s t : State) (dt : Int), exec (.prep dt) s = .next t →
    SameStraps s t ∧ t.errIll = s.errIll ∧ t.errSlot = s.errSlot ∧ t.inputs = s.inputs ∧ t.responses = s.responses ∧
    (∀ a, t.ch.read a = s.ch.read a) ∧
    (effectEn s.variant = false → t.fsI = s.fsI ∧ t.fsQ = s.fsQ ∧ t.fsE = s.fsE ∧ t.acc = s.acc ∧ t.stHold = s.stHold ∧
      t.stWave = s.stWave) ∧
    ((decodeChannels s.variant s.ch).q = 0#8 → t.acc = s.acc)) ∧
  (∀ (s t : State) (index count : Nat), exec (.col1 index count) s = .next t →
    t = { s with responses := t.responses } ∧ ∀ a, t.ch.read a = s.ch.read a) ∧
  ∀ (s t : State) (index : Nat) (x y : Int), exec (.col2 index x y) s = .next t →
    t = { s with responses := t.responses } ∧ ∀ a, t.ch.read a = s.ch.read a

/-- R115: a run of colour commands changes no state of the block, and each answers what it would have answered alone in
the first state, whatever the order and the repetitions. -/
def Obligations.ColourRunsArePure : Prop :=
  ∀ (s : State) (is : List Instr) (rest : List Input),
    (∀ i ∈ is, WellFormed i ∧ (i.opcode = .col1 ∨ i.opcode = .col2)) → s.inputs = is.map offer ++ rest →
    ∃ t, RunsTo is.length s t ∧ t = { s with inputs := rest, responses := t.responses } ∧
      t.responses = s.responses ++ is.flatMap (fun i => responseTo i s)

/-- R39, R115: within a frame the colours do not depend on what the Bridge does: from two states that agree on the Frame
State, the straps and the responses so far, with the same words on port H and anything on port B, and neither a PREP
nor a reset among the moves, the runs emit the same responses. -/
def Obligations.LateChwrDoesNotChangeColours : Prop :=
  ∀ s s' t t' : State, SameFrame s s' → SameStraps s s' → s.responses = s'.responses →
    offeredOn .h s.inputs = offeredOn .h s'.inputs →
    (∀ x ∈ s.inputs, ¬ IsPrep x ∧ ¬ IsReset x) → (∀ x ∈ s'.inputs, ¬ IsPrep x ∧ ¬ IsReset x) →
    RunsTo s.inputs.length s t → RunsTo s'.inputs.length s' t' →
    t.responses = t'.responses ∧ SameFrame t t'

/-- R39: a CHWR before a PREP is seen by it, one after it is not; the buffer ends the same. Seen means that the PREP does
what it does from the written buffer, not seen that it does what it does from the old one: every decoded code, the
effect's too where EFFECT_EN = 1, and with them all that the PREP writes. -/
def Obligations.PrepSeesExactlyTheEarlierChwr : Prop :=
  ∀ (s s' : State) (slot : Nat) (value : Word) (dt : Int) (rest : List Input), Memory.wf s.ch → slot < nch s.variant →
    -2147483648 ≤ dt → dt ≤ 2147483647 →
    s.inputs = offer (.chwr slot value) :: offer (.prep dt) :: rest →
    s' = { s with inputs := offer (.prep dt) :: offer (.chwr slot value) :: rest } →
    ∃ t t', RunsTo 2 s t ∧ RunsTo 2 s' t' ∧ t.ch.read slot = value ∧ (∀ a, t.ch.read a = t'.ch.read a) ∧
      (∃ d, d = decodeChannels s.variant t.ch ∧ t.fsR = d.r ∧ t.fsG = d.g ∧ t.fsB = d.b ∧
        (effectEn s.variant = true → t.fsI = d.i ∧ t.fsQ = d.q)) ∧
      (∃ d, d = decodeChannels s.variant s.ch ∧ t'.fsR = d.r ∧ t'.fsG = d.g ∧ t'.fsB = d.b ∧
        (effectEn s.variant = true → t'.fsI = d.i ∧ t'.fsQ = d.q)) ∧
      exec (.prep dt) { s with inputs := rest, ch := t.ch } = .next t ∧
      ∃ u, exec (.prep dt) { s with inputs := rest } = .next u ∧ t' = { u with ch := t.ch }

/-- R38, R46: a step takes the first word of one port and leaves the other port's words, so each port's order is kept. -/
def Obligations.StepsKeepPortOrder : Prop :=
  ∀ (s t : State) (p : Port) (c : CmdWord) (rest : List Input), s.inputs = .command p c :: rest → step s = .next t →
    offeredOn p s.inputs = c :: offeredOn p t.inputs ∧ ∀ q, q ≠ p → offeredOn q t.inputs = offeredOn q s.inputs

/-- R38, U7: when both ports offer words, either port's may go first: both orders are states of the model. -/
def Obligations.EitherPortMayGoFirst : Prop :=
  ∀ (s : State) (h b : CmdWord) (hs bs : List CmdWord), ∃ l l' : List Input,
    (offeredOn .h l = h :: hs ∧ offeredOn .b l = b :: bs ∧ l.head? = some (.command .h h)) ∧
    (offeredOn .h l' = h :: hs ∧ offeredOn .b l' = b :: bs ∧ l'.head? = some (.command .b b)) ∧
    ∃ t t', step { s with inputs := l } = .next t ∧ step { s with inputs := l' } = .next t' ∧
      offeredOn .h t.inputs = hs ∧ offeredOn .b t'.inputs = bs

/-- R46, R149: every move offered is executed: with no reserved strap value among the moves, as many steps as moves run
through and leave none. -/
def Obligations.EveryOfferedMoveIsExecuted : Prop :=
  ∀ s : State, (∀ x ∈ s.inputs, ¬ ReservedStrap x) → ∃ t, RunsTo s.inputs.length s t ∧ t.inputs = []

/-- R150, R121, R122: agents that offer only legal words on their own port, and CHWR only to slots that exist, never raise
an error flag. -/
def Obligations.DutifulAgentsRaiseNoFlag : Prop :=
  ∀ s : State, s.errIll = false → s.errSlot = false → (∀ x ∈ s.inputs, Dutiful s.variant x) →
    ∃ t, RunsTo s.inputs.length s t ∧ t.inputs = [] ∧ t.errIll = false ∧ t.errSlot = false

/-- R18: the observation pins show each element at its place, and ERR_ANY is the OR of the error flags. -/
def Obligations.PinsShowTheState : Prop :=
  ∀ s : State, (obs s).extractLsb' 56 8 = s.fsR ∧ (obs s).extractLsb' 48 8 = s.fsG ∧ (obs s).extractLsb' 40 8 = s.fsB ∧
    (obs s).extractLsb' 32 8 = s.fsI ∧ (obs s).extractLsb' 24 8 = s.fsQ ∧ (obs s).extractLsb' 16 8 = s.fsE ∧
    (obs s).extractLsb' 0 16 = s.acc ∧ (pins s).obs = obs s ∧
    (pins s).stFV = s.stFV ∧ (pins s).stHold = s.stHold ∧ (pins s).stWave = s.stWave ∧ (pins s).errIll = s.errIll ∧
    (pins s).errSlot = s.errSlot ∧ ((pins s).errAny = true ↔ s.errIll = true ∨ s.errSlot = true)
end

