-- ==== Sys2Proof/Laws/Operands.lean ====
section
/-! SUPPORT. What each operand reading answers, as integers. -/

namespace Sys2Proof.Machine

theorem clampInt_range {n lo hi : Int} (h : lo ≤ hi) : lo ≤ clampInt n lo hi ∧ clampInt n lo hi ≤ hi := by
  unfold clampInt
  split
  · omega
  · split <;> omega

/-- `dec8` as an integer: the clamped floor. -/
theorem dec8_toNat (v : Word) : ((dec8 v).toNat : Int) = clampInt (v.toInt / 65536) 0 255 := by
  have h := clampInt_range (n := v.toInt / 65536) (lo := 0) (hi := 255) (by decide)
  simp only [dec8, BitVec.toNat_ofInt]
  omega

/-- `fr` as an integer. -/
theorem frByte_toNat (v : Word) : (frByte v).toNat = (v.toNat + 128) / 256 % 256 := by
  simp [frByte, BitVec.toNat_ofNat]

/-- The effective elapsed time never runs backwards. -/
theorem dtEff_eq (dt : Int) : (dtEff dt : Int) = max dt 0 := by
  unfold dtEff
  split <;> omega

/-- The modulus of the phase is never zero. -/
theorem period_pos (q : Code8) : 0 < period q := by
  have := q.isLt
  unfold period
  omega

/-- The phase fits 16 bits. -/
theorem period_lt (q : Code8) : period q < 2 ^ 16 := by
  unfold period
  omega

end Sys2Proof.Machine
end

