-- ==== Sys2Proof/Laws/State.lean ====
section
/-! SUPPORT. One lemma per field per update of the state, so that no later proof unfolds a record update. -/

namespace Sys2Proof.Machine

/-! ### `State.writeSlot` -/

@[simp] theorem State.writeSlot_variant (s : State) (slot : Nat) (value : Word) : (s.writeSlot slot value).variant = s.variant := rfl
@[simp] theorem State.writeSlot_packedGSrc (s : State) (slot : Nat) (value : Word) : (s.writeSlot slot value).packedGSrc = s.packedGSrc := rfl
@[simp] theorem State.writeSlot_ch (s : State) (slot : Nat) (value : Word) : (s.writeSlot slot value).ch = s.ch.write slot value := rfl
@[simp] theorem State.writeSlot_fsR (s : State) (slot : Nat) (value : Word) : (s.writeSlot slot value).fsR = s.fsR := rfl
@[simp] theorem State.writeSlot_fsG (s : State) (slot : Nat) (value : Word) : (s.writeSlot slot value).fsG = s.fsG := rfl
@[simp] theorem State.writeSlot_fsB (s : State) (slot : Nat) (value : Word) : (s.writeSlot slot value).fsB = s.fsB := rfl
@[simp] theorem State.writeSlot_fsI (s : State) (slot : Nat) (value : Word) : (s.writeSlot slot value).fsI = s.fsI := rfl
@[simp] theorem State.writeSlot_fsQ (s : State) (slot : Nat) (value : Word) : (s.writeSlot slot value).fsQ = s.fsQ := rfl
@[simp] theorem State.writeSlot_fsE (s : State) (slot : Nat) (value : Word) : (s.writeSlot slot value).fsE = s.fsE := rfl
@[simp] theorem State.writeSlot_acc (s : State) (slot : Nat) (value : Word) : (s.writeSlot slot value).acc = s.acc := rfl
@[simp] theorem State.writeSlot_stFV (s : State) (slot : Nat) (value : Word) : (s.writeSlot slot value).stFV = s.stFV := rfl
@[simp] theorem State.writeSlot_stHold (s : State) (slot : Nat) (value : Word) : (s.writeSlot slot value).stHold = s.stHold := rfl
@[simp] theorem State.writeSlot_stWave (s : State) (slot : Nat) (value : Word) : (s.writeSlot slot value).stWave = s.stWave := rfl
@[simp] theorem State.writeSlot_errIll (s : State) (slot : Nat) (value : Word) : (s.writeSlot slot value).errIll = s.errIll := rfl
@[simp] theorem State.writeSlot_errSlot (s : State) (slot : Nat) (value : Word) : (s.writeSlot slot value).errSlot = s.errSlot := rfl
@[simp] theorem State.writeSlot_inputs (s : State) (slot : Nat) (value : Word) : (s.writeSlot slot value).inputs = s.inputs := rfl
@[simp] theorem State.writeSlot_responses (s : State) (slot : Nat) (value : Word) : (s.writeSlot slot value).responses = s.responses := rfl

/-! ### `State.setColour` -/

@[simp] theorem State.setColour_variant (s : State) (r g b : Code8) : (s.setColour r g b).variant = s.variant := rfl
@[simp] theorem State.setColour_packedGSrc (s : State) (r g b : Code8) : (s.setColour r g b).packedGSrc = s.packedGSrc := rfl
@[simp] theorem State.setColour_ch (s : State) (r g b : Code8) : (s.setColour r g b).ch = s.ch := rfl
@[simp] theorem State.setColour_fsR (s : State) (r g b : Code8) : (s.setColour r g b).fsR = r := rfl
@[simp] theorem State.setColour_fsG (s : State) (r g b : Code8) : (s.setColour r g b).fsG = g := rfl
@[simp] theorem State.setColour_fsB (s : State) (r g b : Code8) : (s.setColour r g b).fsB = b := rfl
@[simp] theorem State.setColour_fsI (s : State) (r g b : Code8) : (s.setColour r g b).fsI = s.fsI := rfl
@[simp] theorem State.setColour_fsQ (s : State) (r g b : Code8) : (s.setColour r g b).fsQ = s.fsQ := rfl
@[simp] theorem State.setColour_fsE (s : State) (r g b : Code8) : (s.setColour r g b).fsE = s.fsE := rfl
@[simp] theorem State.setColour_acc (s : State) (r g b : Code8) : (s.setColour r g b).acc = s.acc := rfl
@[simp] theorem State.setColour_stFV (s : State) (r g b : Code8) : (s.setColour r g b).stFV = s.stFV := rfl
@[simp] theorem State.setColour_stHold (s : State) (r g b : Code8) : (s.setColour r g b).stHold = s.stHold := rfl
@[simp] theorem State.setColour_stWave (s : State) (r g b : Code8) : (s.setColour r g b).stWave = s.stWave := rfl
@[simp] theorem State.setColour_errIll (s : State) (r g b : Code8) : (s.setColour r g b).errIll = s.errIll := rfl
@[simp] theorem State.setColour_errSlot (s : State) (r g b : Code8) : (s.setColour r g b).errSlot = s.errSlot := rfl
@[simp] theorem State.setColour_inputs (s : State) (r g b : Code8) : (s.setColour r g b).inputs = s.inputs := rfl
@[simp] theorem State.setColour_responses (s : State) (r g b : Code8) : (s.setColour r g b).responses = s.responses := rfl

/-! ### `State.setEffect` -/

@[simp] theorem State.setEffect_variant (s : State) (i q e : Code8) (a : BitVec 16) (hold wave : Bool) : (s.setEffect i q e a hold wave).variant = s.variant := rfl
@[simp] theorem State.setEffect_packedGSrc (s : State) (i q e : Code8) (a : BitVec 16) (hold wave : Bool) : (s.setEffect i q e a hold wave).packedGSrc = s.packedGSrc := rfl
@[simp] theorem State.setEffect_ch (s : State) (i q e : Code8) (a : BitVec 16) (hold wave : Bool) : (s.setEffect i q e a hold wave).ch = s.ch := rfl
@[simp] theorem State.setEffect_fsR (s : State) (i q e : Code8) (a : BitVec 16) (hold wave : Bool) : (s.setEffect i q e a hold wave).fsR = s.fsR := rfl
@[simp] theorem State.setEffect_fsG (s : State) (i q e : Code8) (a : BitVec 16) (hold wave : Bool) : (s.setEffect i q e a hold wave).fsG = s.fsG := rfl
@[simp] theorem State.setEffect_fsB (s : State) (i q e : Code8) (a : BitVec 16) (hold wave : Bool) : (s.setEffect i q e a hold wave).fsB = s.fsB := rfl
@[simp] theorem State.setEffect_fsI (s : State) (i q e : Code8) (a : BitVec 16) (hold wave : Bool) : (s.setEffect i q e a hold wave).fsI = i := rfl
@[simp] theorem State.setEffect_fsQ (s : State) (i q e : Code8) (a : BitVec 16) (hold wave : Bool) : (s.setEffect i q e a hold wave).fsQ = q := rfl
@[simp] theorem State.setEffect_fsE (s : State) (i q e : Code8) (a : BitVec 16) (hold wave : Bool) : (s.setEffect i q e a hold wave).fsE = e := rfl
@[simp] theorem State.setEffect_acc (s : State) (i q e : Code8) (a : BitVec 16) (hold wave : Bool) : (s.setEffect i q e a hold wave).acc = a := rfl
@[simp] theorem State.setEffect_stFV (s : State) (i q e : Code8) (a : BitVec 16) (hold wave : Bool) : (s.setEffect i q e a hold wave).stFV = s.stFV := rfl
@[simp] theorem State.setEffect_stHold (s : State) (i q e : Code8) (a : BitVec 16) (hold wave : Bool) : (s.setEffect i q e a hold wave).stHold = hold := rfl
@[simp] theorem State.setEffect_stWave (s : State) (i q e : Code8) (a : BitVec 16) (hold wave : Bool) : (s.setEffect i q e a hold wave).stWave = wave := rfl
@[simp] theorem State.setEffect_errIll (s : State) (i q e : Code8) (a : BitVec 16) (hold wave : Bool) : (s.setEffect i q e a hold wave).errIll = s.errIll := rfl
@[simp] theorem State.setEffect_errSlot (s : State) (i q e : Code8) (a : BitVec 16) (hold wave : Bool) : (s.setEffect i q e a hold wave).errSlot = s.errSlot := rfl
@[simp] theorem State.setEffect_inputs (s : State) (i q e : Code8) (a : BitVec 16) (hold wave : Bool) : (s.setEffect i q e a hold wave).inputs = s.inputs := rfl
@[simp] theorem State.setEffect_responses (s : State) (i q e : Code8) (a : BitVec 16) (hold wave : Bool) : (s.setEffect i q e a hold wave).responses = s.responses := rfl

/-! ### `State.setFrameValid` -/

@[simp] theorem State.setFrameValid_variant (s : State) : (s.setFrameValid).variant = s.variant := rfl
@[simp] theorem State.setFrameValid_packedGSrc (s : State) : (s.setFrameValid).packedGSrc = s.packedGSrc := rfl
@[simp] theorem State.setFrameValid_ch (s : State) : (s.setFrameValid).ch = s.ch := rfl
@[simp] theorem State.setFrameValid_fsR (s : State) : (s.setFrameValid).fsR = s.fsR := rfl
@[simp] theorem State.setFrameValid_fsG (s : State) : (s.setFrameValid).fsG = s.fsG := rfl
@[simp] theorem State.setFrameValid_fsB (s : State) : (s.setFrameValid).fsB = s.fsB := rfl
@[simp] theorem State.setFrameValid_fsI (s : State) : (s.setFrameValid).fsI = s.fsI := rfl
@[simp] theorem State.setFrameValid_fsQ (s : State) : (s.setFrameValid).fsQ = s.fsQ := rfl
@[simp] theorem State.setFrameValid_fsE (s : State) : (s.setFrameValid).fsE = s.fsE := rfl
@[simp] theorem State.setFrameValid_acc (s : State) : (s.setFrameValid).acc = s.acc := rfl
@[simp] theorem State.setFrameValid_stFV (s : State) : (s.setFrameValid).stFV = true := rfl
@[simp] theorem State.setFrameValid_stHold (s : State) : (s.setFrameValid).stHold = s.stHold := rfl
@[simp] theorem State.setFrameValid_stWave (s : State) : (s.setFrameValid).stWave = s.stWave := rfl
@[simp] theorem State.setFrameValid_errIll (s : State) : (s.setFrameValid).errIll = s.errIll := rfl
@[simp] theorem State.setFrameValid_errSlot (s : State) : (s.setFrameValid).errSlot = s.errSlot := rfl
@[simp] theorem State.setFrameValid_inputs (s : State) : (s.setFrameValid).inputs = s.inputs := rfl
@[simp] theorem State.setFrameValid_responses (s : State) : (s.setFrameValid).responses = s.responses := rfl

/-! ### `State.respond` -/

@[simp] theorem State.respond_variant (s : State) (c : Rgb) (band : Bool) : (s.respond c band).variant = s.variant := rfl
@[simp] theorem State.respond_packedGSrc (s : State) (c : Rgb) (band : Bool) : (s.respond c band).packedGSrc = s.packedGSrc := rfl
@[simp] theorem State.respond_ch (s : State) (c : Rgb) (band : Bool) : (s.respond c band).ch = s.ch := rfl
@[simp] theorem State.respond_fsR (s : State) (c : Rgb) (band : Bool) : (s.respond c band).fsR = s.fsR := rfl
@[simp] theorem State.respond_fsG (s : State) (c : Rgb) (band : Bool) : (s.respond c band).fsG = s.fsG := rfl
@[simp] theorem State.respond_fsB (s : State) (c : Rgb) (band : Bool) : (s.respond c band).fsB = s.fsB := rfl
@[simp] theorem State.respond_fsI (s : State) (c : Rgb) (band : Bool) : (s.respond c band).fsI = s.fsI := rfl
@[simp] theorem State.respond_fsQ (s : State) (c : Rgb) (band : Bool) : (s.respond c band).fsQ = s.fsQ := rfl
@[simp] theorem State.respond_fsE (s : State) (c : Rgb) (band : Bool) : (s.respond c band).fsE = s.fsE := rfl
@[simp] theorem State.respond_acc (s : State) (c : Rgb) (band : Bool) : (s.respond c band).acc = s.acc := rfl
@[simp] theorem State.respond_stFV (s : State) (c : Rgb) (band : Bool) : (s.respond c band).stFV = s.stFV := rfl
@[simp] theorem State.respond_stHold (s : State) (c : Rgb) (band : Bool) : (s.respond c band).stHold = s.stHold := rfl
@[simp] theorem State.respond_stWave (s : State) (c : Rgb) (band : Bool) : (s.respond c band).stWave = s.stWave := rfl
@[simp] theorem State.respond_errIll (s : State) (c : Rgb) (band : Bool) : (s.respond c band).errIll = s.errIll := rfl
@[simp] theorem State.respond_errSlot (s : State) (c : Rgb) (band : Bool) : (s.respond c band).errSlot = s.errSlot := rfl
@[simp] theorem State.respond_inputs (s : State) (c : Rgb) (band : Bool) : (s.respond c band).inputs = s.inputs := rfl
@[simp] theorem State.respond_responses (s : State) (c : Rgb) (band : Bool) : (s.respond c band).responses = s.responses ++ [responseWord band c] := rfl

/-! ### `State.withInputs` -/

@[simp] theorem State.withInputs_variant (s : State) (l : List Input) : (s.withInputs l).variant = s.variant := rfl
@[simp] theorem State.withInputs_packedGSrc (s : State) (l : List Input) : (s.withInputs l).packedGSrc = s.packedGSrc := rfl
@[simp] theorem State.withInputs_ch (s : State) (l : List Input) : (s.withInputs l).ch = s.ch := rfl
@[simp] theorem State.withInputs_fsR (s : State) (l : List Input) : (s.withInputs l).fsR = s.fsR := rfl
@[simp] theorem State.withInputs_fsG (s : State) (l : List Input) : (s.withInputs l).fsG = s.fsG := rfl
@[simp] theorem State.withInputs_fsB (s : State) (l : List Input) : (s.withInputs l).fsB = s.fsB := rfl
@[simp] theorem State.withInputs_fsI (s : State) (l : List Input) : (s.withInputs l).fsI = s.fsI := rfl
@[simp] theorem State.withInputs_fsQ (s : State) (l : List Input) : (s.withInputs l).fsQ = s.fsQ := rfl
@[simp] theorem State.withInputs_fsE (s : State) (l : List Input) : (s.withInputs l).fsE = s.fsE := rfl
@[simp] theorem State.withInputs_acc (s : State) (l : List Input) : (s.withInputs l).acc = s.acc := rfl
@[simp] theorem State.withInputs_stFV (s : State) (l : List Input) : (s.withInputs l).stFV = s.stFV := rfl
@[simp] theorem State.withInputs_stHold (s : State) (l : List Input) : (s.withInputs l).stHold = s.stHold := rfl
@[simp] theorem State.withInputs_stWave (s : State) (l : List Input) : (s.withInputs l).stWave = s.stWave := rfl
@[simp] theorem State.withInputs_errIll (s : State) (l : List Input) : (s.withInputs l).errIll = s.errIll := rfl
@[simp] theorem State.withInputs_errSlot (s : State) (l : List Input) : (s.withInputs l).errSlot = s.errSlot := rfl
@[simp] theorem State.withInputs_inputs (s : State) (l : List Input) : (s.withInputs l).inputs = l := rfl
@[simp] theorem State.withInputs_responses (s : State) (l : List Input) : (s.withInputs l).responses = s.responses := rfl

/-! ### `State.raise` -/

@[simp] theorem State.raise_ill_errIll (s : State) : (s.raise .ill).errIll = true := rfl
@[simp] theorem State.raise_slot_errSlot (s : State) : (s.raise .slot).errSlot = true := rfl
@[simp] theorem State.raise_slot_errIll (s : State) : (s.raise .slot).errIll = s.errIll := rfl
@[simp] theorem State.raise_ill_errSlot (s : State) : (s.raise .ill).errSlot = s.errSlot := rfl
@[simp] theorem State.raise_variant (s : State) (c : ErrorCause) : (s.raise c).variant = s.variant := by cases c <;> rfl
@[simp] theorem State.raise_packedGSrc (s : State) (c : ErrorCause) : (s.raise c).packedGSrc = s.packedGSrc := by cases c <;> rfl
@[simp] theorem State.raise_ch (s : State) (c : ErrorCause) : (s.raise c).ch = s.ch := by cases c <;> rfl
@[simp] theorem State.raise_fsR (s : State) (c : ErrorCause) : (s.raise c).fsR = s.fsR := by cases c <;> rfl
@[simp] theorem State.raise_fsG (s : State) (c : ErrorCause) : (s.raise c).fsG = s.fsG := by cases c <;> rfl
@[simp] theorem State.raise_fsB (s : State) (c : ErrorCause) : (s.raise c).fsB = s.fsB := by cases c <;> rfl
@[simp] theorem State.raise_fsI (s : State) (c : ErrorCause) : (s.raise c).fsI = s.fsI := by cases c <;> rfl
@[simp] theorem State.raise_fsQ (s : State) (c : ErrorCause) : (s.raise c).fsQ = s.fsQ := by cases c <;> rfl
@[simp] theorem State.raise_fsE (s : State) (c : ErrorCause) : (s.raise c).fsE = s.fsE := by cases c <;> rfl
@[simp] theorem State.raise_acc (s : State) (c : ErrorCause) : (s.raise c).acc = s.acc := by cases c <;> rfl
@[simp] theorem State.raise_stFV (s : State) (c : ErrorCause) : (s.raise c).stFV = s.stFV := by cases c <;> rfl
@[simp] theorem State.raise_stHold (s : State) (c : ErrorCause) : (s.raise c).stHold = s.stHold := by cases c <;> rfl
@[simp] theorem State.raise_stWave (s : State) (c : ErrorCause) : (s.raise c).stWave = s.stWave := by cases c <;> rfl
@[simp] theorem State.raise_inputs (s : State) (c : ErrorCause) : (s.raise c).inputs = s.inputs := by cases c <;> rfl
@[simp] theorem State.raise_responses (s : State) (c : ErrorCause) : (s.raise c).responses = s.responses := by cases c <;> rfl

/-! ### `State.resetWith` -/

@[simp] theorem State.resetWith_variant (v : Variant) (g : GreenSource) : (State.resetWith v g).variant = v := rfl
@[simp] theorem State.resetWith_packedGSrc (v : Variant) (g : GreenSource) : (State.resetWith v g).packedGSrc = g := rfl
@[simp] theorem State.resetWith_ch (v : Variant) (g : GreenSource) : (State.resetWith v g).ch = [] := rfl
@[simp] theorem State.resetWith_fsR (v : Variant) (g : GreenSource) : (State.resetWith v g).fsR = 0#8 := rfl
@[simp] theorem State.resetWith_fsG (v : Variant) (g : GreenSource) : (State.resetWith v g).fsG = 0#8 := rfl
@[simp] theorem State.resetWith_fsB (v : Variant) (g : GreenSource) : (State.resetWith v g).fsB = 0#8 := rfl
@[simp] theorem State.resetWith_fsI (v : Variant) (g : GreenSource) : (State.resetWith v g).fsI = 0#8 := rfl
@[simp] theorem State.resetWith_fsQ (v : Variant) (g : GreenSource) : (State.resetWith v g).fsQ = 0#8 := rfl
@[simp] theorem State.resetWith_fsE (v : Variant) (g : GreenSource) : (State.resetWith v g).fsE = 0#8 := rfl
@[simp] theorem State.resetWith_acc (v : Variant) (g : GreenSource) : (State.resetWith v g).acc = 0#16 := rfl
@[simp] theorem State.resetWith_stFV (v : Variant) (g : GreenSource) : (State.resetWith v g).stFV = false := rfl
@[simp] theorem State.resetWith_stHold (v : Variant) (g : GreenSource) : (State.resetWith v g).stHold = false := rfl
@[simp] theorem State.resetWith_stWave (v : Variant) (g : GreenSource) : (State.resetWith v g).stWave = false := rfl
@[simp] theorem State.resetWith_errIll (v : Variant) (g : GreenSource) : (State.resetWith v g).errIll = false := rfl
@[simp] theorem State.resetWith_errSlot (v : Variant) (g : GreenSource) : (State.resetWith v g).errSlot = false := rfl
@[simp] theorem State.resetWith_inputs (v : Variant) (g : GreenSource) : (State.resetWith v g).inputs = [] := rfl
@[simp] theorem State.resetWith_responses (v : Variant) (g : GreenSource) : (State.resetWith v g).responses = [] := rfl

/-! ### Two updates of one field -/

@[simp] theorem State.withInputs_withInputs (s : State) (l l' : List Input) :
    (s.withInputs l).withInputs l' = s.withInputs l' := rfl

end Sys2Proof.Machine
end

