-- ==== Sys2Proof/Laws/Machine.lean ====
section
/-! SUPPORT. What the shared operations above the state can do, said once: the effect step, the prepared frame, taking a
move, reset, and the inversion of one step. -/

namespace Sys2Proof.Machine

/-- ACC after an effect step, as an integer. -/
theorem accAfter_toNat (acc : BitVec 16) (q : Code8) (dt : Int) :
    (accAfter acc q dt).toNat = if q = 0#8 then acc.toNat else (acc.toNat + dtEff dt) % period q := by
  unfold accAfter
  split
  · rfl
  · rw [BitVec.toNat_ofNat, Nat.mod_eq_of_lt (Nat.lt_trans (Nat.mod_lt _ (period_pos q)) (period_lt q))]

/-- Everything an effect step does: it writes the six effect elements and nothing else. -/
theorem effectStep_eq (i q : Code8) (dt : Int) (s : State) :
    effectStep i q dt s = { s with fsI := i, fsQ := q, fsE := brightness i (waveFlag q (accAfter s.acc q dt)), acc := accAfter s.acc q dt, stHold := holdFlag q, stWave := waveFlag q (accAfter s.acc q dt) } := rfl

/-- A prepared frame without the effect. -/
theorem prepareFrame_noEffect (c : Channels) (dt : Int) {s : State} (h : effectEn s.variant = false) :
    prepareFrame c dt s = { s with fsR := c.r, fsG := c.g, fsB := c.b, stFV := true } := by
  simp only [prepareFrame, h, State.setColour, State.setFrameValid]
  simp

/-- A prepared frame with the effect. -/
theorem prepareFrame_effect (c : Channels) (dt : Int) {s : State} (h : effectEn s.variant = true) :
    prepareFrame c dt s = { effectStep c.i c.q dt s with fsR := c.r, fsG := c.g, fsB := c.b, stFV := true } := by
  simp only [prepareFrame, h, State.setColour, State.setFrameValid, if_true, effectStep_eq]

/-- Taking a move from a state in which one is offered. -/
theorem takeInput_cons {s : State} {x : Input} {rest : List Input} (h : s.inputs = x :: rest) :
    takeInput s = some (x, s.withInputs rest) := by simp [takeInput, h]

/-- A reset answers the reset state with the moves still to come, or refuses the reserved strap value. -/
theorem releaseReset_cases (v : BitVec 2) (g : BitVec 1) (s : State) :
    (v = 3#2 ∧ releaseReset v g s = .refused .reservedVariantStrap) ∨
    ∃ w, variantOfStrap v = some w ∧ releaseReset v g s = .next ((State.resetWith w (greenOfStrap g)).withInputs s.inputs) := by
  revert v
  simp only [releaseReset]
  intro v
  have hv : v = 0#2 ∨ v = 1#2 ∨ v = 2#2 ∨ v = 3#2 := by revert v; decide
  rcases hv with rfl | rfl | rfl | rfl <;> simp [variantOfStrap]

/-- Everything one step that answers a next state can have done: nothing was offered; a legal command was executed; an
illegal word was discarded; or reset was asserted. -/
theorem step_cases {s t : State} (h : step s = .next t) :
    (s.inputs = [] ∧ t = s) ∨
    (∃ p c rest i, s.inputs = .command p c :: rest ∧ decode p c = .ok i ∧ exec i (s.withInputs rest) = .next t) ∨
    (∃ p c rest why, s.inputs = .command p c :: rest ∧ decode p c = .error why ∧ t = (s.withInputs rest).raise .ill) ∨
    (∃ v g rest w, s.inputs = .reset v g :: rest ∧ variantOfStrap v = some w ∧
      t = (State.resetWith w (greenOfStrap g)).withInputs rest) := by
  cases hi : s.inputs with
  | nil =>
    simp only [step, takeInput, hi] at h
    exact .inl ⟨rfl, by injection h with h; exact h.symm⟩
  | cons x rest =>
    simp only [step, takeInput_cons hi] at h
    cases x with
    | command p c =>
      cases hd : decode p c with
      | ok i => exact .inr (.inl ⟨p, c, rest, i, rfl, hd, by simpa [hd] using h⟩)
      | error why =>
        simp only [hd, discardIllegal] at h
        exact .inr (.inr (.inl ⟨p, c, rest, why, rfl, hd, by injection h with h; exact h.symm⟩))
    | reset v g =>
      simp only at h
      rcases releaseReset_cases v g (s.withInputs rest) with ⟨-, hr⟩ | ⟨w, hw, hr⟩
      · rw [hr] at h; cases h
      · rw [hr] at h
        injection h with h
        exact .inr (.inr (.inr ⟨v, g, rest, w, rfl, hw, h.symm⟩))

/-- Every command answers a next state from every state. -/
theorem exec_cases (i : Instr) (s : State) :
    (∃ slot value, i = .chwr slot value ∧ nch s.variant ≤ slot ∧ exec i s = .next (s.raise .slot)) ∨
    (∃ slot value, i = .chwr slot value ∧ slot < nch s.variant ∧ exec i s = .next (s.writeSlot slot value)) ∨
    (∃ dt, i = .prep dt ∧ exec i s = .next (prepareFrame (decodeChannels s.variant s.ch) dt s)) ∨
    (∃ band, ((∃ index count, i = .col1 index count ∧ band = band1 s.variant index count) ∨
        ∃ index x y, i = .col2 index x y ∧ band = band2 s.variant y) ∧ exec i s = .next (s.respond (compose band s) band)) := by
  cases i with
  | chwr slot value =>
    rcases Nat.lt_or_ge slot (nch s.variant) with h | h
    · exact .inr (.inl ⟨slot, value, rfl, h, by simp [exec, execChwr, Nat.not_le.2 h]⟩)
    · exact .inl ⟨slot, value, rfl, h, by simp [exec, execChwr, h]⟩
  | prep dt => exact .inr (.inr (.inl ⟨dt, rfl, rfl⟩))
  | col1 index count => exact .inr (.inr (.inr ⟨_, .inl ⟨index, count, rfl, rfl⟩, rfl⟩))
  | col2 index x y => exact .inr (.inr (.inr ⟨_, .inr ⟨index, x, y, rfl, rfl⟩, rfl⟩))

/-- Every command answers a next state and leaves the moves to come and the straps alone. -/
theorem exec_answers (i : Instr) (s : State) :
    ∃ t, exec i s = .next t ∧ t.inputs = s.inputs ∧ t.variant = s.variant ∧ t.packedGSrc = s.packedGSrc := by
  rcases exec_cases i s with ⟨_, _, -, -, h⟩ | ⟨_, _, -, -, h⟩ | ⟨_, -, h⟩ | ⟨_, -, h⟩
  · exact ⟨_, h, by simp⟩
  · exact ⟨_, h, by simp⟩
  · refine ⟨_, h, ?_⟩
    simp only [prepareFrame]
    split <;> simp [effectStep]
  · exact ⟨_, h, by simp⟩

/-- A step takes one move, if there is one. -/
theorem step_takes_one {s t : State} (h : step s = .next t) : t.inputs = s.inputs.tail := by
  rcases step_cases h with ⟨hi, rfl⟩ | ⟨p, c, rest, i, hi, -, he⟩ | ⟨p, c, rest, w, hi, -, rfl⟩ | ⟨v, g, rest, w, hi, -, rfl⟩
  · simp [hi]
  · obtain ⟨u, hu, h1, -⟩ := exec_answers i (s.withInputs rest)
    rw [he] at hu
    cases hu
    simp [h1, hi]
  · simp [hi]
  · simp [hi]

/-- A run of no steps. -/
theorem runsTo_zero {s t : State} : RunsTo 0 s t ↔ t = s :=
  ⟨fun h => by injection h with h; exact h.symm, fun h => h ▸ rfl⟩

/-- A run of one step more. -/
theorem runsTo_succ {n : Nat} {s t : State} : RunsTo (n + 1) s t ↔ ∃ u, step s = .next u ∧ RunsTo n u t := by
  have h : Sys2Proof.core.step s = step s := rfl
  simp only [RunsTo, Host.Core.run, h]
  cases step s with
  | next u => exact ⟨fun hr => ⟨u, rfl, hr⟩, fun ⟨v, hv, hr⟩ => by cases hv; exact hr⟩
  | fault r => exact ⟨fun hr => (nomatch hr), fun ⟨_, hv, _⟩ => (nomatch hv)⟩
  | refused r => exact ⟨fun hr => (nomatch hr), fun ⟨_, hv, _⟩ => (nomatch hv)⟩

end Sys2Proof.Machine
end

