-- ==== Sys2Proof/Laws/Memory.lean ====
section
/-! SUPPORT. The laws of the Channel Buffer: read after write, the frame of a write, and the canonical form kept. -/

namespace Sys2Proof.Machine

@[simp] theorem Memory.read_nil (a : Nat) : Memory.read [] a = Memory.unlisted := rfl

theorem Memory.wf_nil : Memory.wf [] := ⟨List.Pairwise.nil, fun _ h => nomatch h⟩

/-- The tail of a canonical buffer is canonical. -/
theorem Memory.wf_tail {c : Nat × Word} {m : Memory} (h : Memory.wf (c :: m)) : Memory.wf m :=
  ⟨h.1.of_cons, fun d hd => h.2 d (List.mem_cons_of_mem _ hd)⟩

/-- A slot below every listed address reads as unlisted. -/
theorem Memory.read_below {m : Memory} {a : Nat} (h : ∀ c ∈ m, a < c.1) : m.read a = Memory.unlisted := by
  induction m with
  | nil => rfl
  | cons c m ih =>
    obtain ⟨b, w⟩ := c
    have hb : a < b := h (b, w) (List.mem_cons_self ..)
    simp only [Memory.read, if_neg (Nat.ne_of_gt hb)]
    exact ih fun c hc => h c (List.mem_cons_of_mem _ hc)

/-- In a canonical buffer the head's address lies below every other. -/
theorem Memory.head_below {b : Nat} {w : Word} {m : Memory} (h : Memory.wf ((b, w) :: m)) : ∀ c ∈ m, b < c.1 :=
  fun c hc => (List.pairwise_cons.1 h.1).1 c hc

/-- Read after write at the same slot. -/
theorem Memory.read_write_same {m : Memory} (h : Memory.wf m) (a : Nat) (v : Word) : (m.write a v).read a = v := by
  induction m with
  | nil =>
    by_cases hv : v = Memory.unlisted <;> simp [Memory.write, Memory.read, hv]
  | cons c m ih =>
    obtain ⟨b, w⟩ := c
    have hb := Memory.head_below h
    rcases Nat.lt_trichotomy a b with hab | rfl | hab
    · by_cases hv : v = Memory.unlisted
      · have hr : Memory.read ((b, w) :: m) a = Memory.unlisted :=
          Memory.read_below fun c hc => by
            rcases List.mem_cons.1 hc with rfl | hc
            · exact hab
            · exact Nat.lt_trans hab (hb c hc)
        simp [Memory.write, hab, hv, hr]
      · simp [Memory.write, Memory.read, hab, hv]
    · by_cases hv : v = Memory.unlisted
      · simp [Memory.write, hv, Memory.read_below hb]
      · simp [Memory.write, Memory.read, hv]
    · have h1 : ¬ a < b := Nat.not_lt.2 (Nat.le_of_lt hab)
      simp [Memory.write, Memory.read, h1, Nat.ne_of_gt hab, Nat.ne_of_lt hab, ih (Memory.wf_tail h)]

/-- A write leaves every other slot alone. -/
theorem Memory.read_write_other {m : Memory} {a a' : Nat} (h : a' ≠ a) (v : Word) : (m.write a v).read a' = m.read a' := by
  induction m with
  | nil => by_cases hv : v = Memory.unlisted <;> simp [Memory.write, Memory.read, hv, Ne.symm h]
  | cons c m ih =>
    obtain ⟨b, w⟩ := c
    simp only [Memory.write]
    split
    · split <;> simp [Memory.read, Ne.symm h]
    · split
      · rename_i hab
        subst hab
        split <;> simp [Memory.read, Ne.symm h]
      · simp [Memory.read, ih]

/-- Every pair of a written buffer is the one written or was there before. -/
theorem Memory.mem_write {m : Memory} {a : Nat} {v : Word} {c : Nat × Word} (h : c ∈ m.write a v) :
    (c = (a, v) ∧ v ≠ Memory.unlisted) ∨ c ∈ m := by
  induction m with
  | nil =>
    simp only [Memory.write] at h
    split at h <;> simp_all
  | cons d m ih =>
    obtain ⟨b, w⟩ := d
    simp only [Memory.write] at h
    split at h
    · split at h
      · exact .inr h
      · rcases List.mem_cons.1 h with rfl | h
        · exact .inl ⟨rfl, ‹_›⟩
        · exact .inr h
    · split at h
      · split at h
        · exact .inr (List.mem_cons_of_mem _ h)
        · rcases List.mem_cons.1 h with rfl | h
          · exact .inl ⟨rfl, ‹_›⟩
          · exact .inr (List.mem_cons_of_mem _ h)
      · rcases List.mem_cons.1 h with rfl | h
        · exact .inr (List.mem_cons_self ..)
        · exact (ih h).imp_right (List.mem_cons_of_mem _)

/-- A write keeps the canonical form. -/
theorem Memory.wf_write {m : Memory} (h : Memory.wf m) (a : Nat) (v : Word) : Memory.wf (m.write a v) := by
  refine ⟨?_, fun c hc => ?_⟩
  · induction m with
    | nil => simp only [Memory.write]; split <;> simp
    | cons d m ih =>
      obtain ⟨b, w⟩ := d
      have hb := Memory.head_below h
      simp only [Memory.write]
      split
      · rename_i hab
        split
        · exact h.1
        · refine List.pairwise_cons.2 ⟨fun c hc => ?_, h.1⟩
          rcases List.mem_cons.1 hc with rfl | hc
          · exact hab
          · exact Nat.lt_trans hab (hb c hc)
      · split
        · rename_i hab
          subst hab
          split
          · exact (Memory.wf_tail h).1
          · exact List.pairwise_cons.2 ⟨hb, (Memory.wf_tail h).1⟩
        · rename_i h1 h2
          refine List.pairwise_cons.2 ⟨fun c hc => ?_, ih (Memory.wf_tail h)⟩
          rcases Memory.mem_write hc with ⟨rfl, -⟩ | hc
          · exact Nat.lt_of_le_of_ne (Nat.not_lt.1 h1) (Ne.symm h2)
          · exact hb c hc
  · rcases Memory.mem_write hc with ⟨rfl, hv⟩ | hc
    · exact hv
    · exact h.2 c hc

end Sys2Proof.Machine
end

