-- ==== Sys2Proof/Laws/PerInstr.lean ====
section
/-! SUPPORT. One family of statements about every command as it is written: its word lies in its own row of
opcode_table.json (30_encoding.md R56). -/

namespace Sys2Proof.Laws.EncodingHasTableMatch

/-- The word of a command meets the mask and match of its row. -/
def Statement (i : Instr) : Prop := encode i &&& tableMask i.opcode = tableMatch i.opcode

/-- A mask over five fields acts field by field. -/
theorem mask_fields {n₁ n₂ n₃ n₄ n₅ : Nat} (a a' : BitVec n₁) (b b' : BitVec n₂) (c c' : BitVec n₃) (d d' : BitVec n₄)
    (e e' : BitVec n₅) :
    (a ++ b ++ c ++ d ++ e) &&& (a' ++ b' ++ c' ++ d' ++ e') =
      (a &&& a') ++ (b &&& b') ++ (c &&& c') ++ (d &&& d') ++ (e &&& e') := by
  simp only [BitVec.and_append]

/-- A mask over four fields acts field by field. -/
theorem mask_four_fields {n₁ n₂ n₃ n₄ : Nat} (a a' : BitVec n₁) (b b' : BitVec n₂) (c c' : BitVec n₃) (d d' : BitVec n₄) :
    (a ++ b ++ c ++ d) &&& (a' ++ b' ++ c' ++ d') = (a &&& a') ++ (b &&& b') ++ (c &&& c') ++ (d &&& d') := by
  simp only [BitVec.and_append]

theorem chwr (slot : Nat) (value : Word) : Statement (.chwr slot value) :=
  (mask_fields (opBits .chwr) 0xF#4 0#12 0xFFF#12 0#13 0x1FFF#13 (BitVec.ofNat 3 slot) 0#3 value 0#32).trans
    (by rw [BitVec.and_zero, BitVec.and_zero]; rfl)

theorem prep (dt : Int) : Statement (.prep dt) :=
  (mask_four_fields (opBits .prep) 0xF#4 0#12 0xFFF#12 0#16 0xFFFF#16 (BitVec.ofInt 32 dt) 0#32).trans
    (by rw [BitVec.and_zero]; rfl)

theorem col1 (index count : Nat) : Statement (.col1 index count) :=
  (mask_fields (opBits .col1) 0xF#4 0#12 0xFFF#12 (BitVec.ofNat 16 index) 0#16 (BitVec.ofNat 16 count) 0#16 0#16
    0xFFFF#16).trans (by rw [BitVec.and_zero, BitVec.and_zero]; rfl)

theorem col2 (index : Nat) (x y : Int) : Statement (.col2 index x y) :=
  (mask_fields (opBits .col2) 0xF#4 0#12 0xFFF#12 (BitVec.ofNat 16 index) 0#16 (BitVec.ofInt 16 x) 0#16
    (BitVec.ofInt 16 y) 0#16).trans (by rw [BitVec.and_zero, BitVec.and_zero, BitVec.and_zero]; rfl)

end Sys2Proof.Laws.EncodingHasTableMatch
end

