-- ==== Sys2Proof/Tests/Slice0.lean ====
section
/-! SUPPORT. The author's own tests. Expected values come from the spec's encodings and from 95_test_vectors.md, never
from the model; and for each obligation with hypotheses a concrete case that meets them all (`witness_…`). -/

open Sys2Proof Sys2Proof.Machine

namespace Sys2Proof.Tests

/-! ### Helpers -/

/-- The state a step answers, if it answers one. -/
def nextOf : Host.Outcome State Fault Refusal → Option State
  | .next t => some t
  | .fault _ => none
  | .refused _ => none

/-- The reason a step is refused, if it is. -/
def refusalOf : Host.Outcome State Fault Refusal → Option Refusal
  | .next _ => none
  | .fault _ => none
  | .refused r => some r

/-- The reset state of a variant with these moves to come. -/
def fresh (v : Variant) (l : List Input) : State := { State.resetWith v .green with inputs := l }

/-- A reset state with these slots written. -/
def filled (v : Variant) (m : Memory) (l : List Input) : State := { fresh v l with ch := m }

/-- The state of 95_test_vectors.md section 2.8. -/
def prepared (v : Variant) (g : GreenSource) : State :=
  { State.resetWith v g with fsR := 191#8, fsG := 10#8, fsB := 5#8, fsE := 127#8 }

/-- The slots of scenario S1. -/
def slotsS1 : Memory := [(0, 0x00BF0000#32), (3, 0x007F0000#32)]

/-- Slots with intensity 255 and rate 255 in STROBE5 (scenario S2). -/
def slotsS2 : Memory := [(3, 0x00FF0000#32), (4, 0x00FF0000#32)]

/-! ### WellFormed: each check refuses -/

theorem test_wf_slot : wellFormed (.chwr 7 0#32) = true ∧ wellFormed (.chwr 8 0#32) = false := by decide
theorem test_wf_dt_high : wellFormed (.prep 2147483647) = true ∧ wellFormed (.prep 2147483648) = false := by decide
theorem test_wf_dt_low : wellFormed (.prep (-2147483648)) = true ∧ wellFormed (.prep (-2147483649)) = false := by decide
theorem test_wf_col1_index : wellFormed (.col1 65535 0) = true ∧ wellFormed (.col1 65536 0) = false := by decide
theorem test_wf_col1_count : wellFormed (.col1 0 65535) = true ∧ wellFormed (.col1 0 65536) = false := by decide
theorem test_wf_col2_index : wellFormed (.col2 65535 0 0) = true ∧ wellFormed (.col2 65536 0 0) = false := by decide
theorem test_wf_col2_x : wellFormed (.col2 0 32767 0) = true ∧ wellFormed (.col2 0 32768 0) = false ∧
    wellFormed (.col2 0 (-32768) 0) = true ∧ wellFormed (.col2 0 (-32769) 0) = false := by decide
theorem test_wf_col2_y : wellFormed (.col2 0 0 32767) = true ∧ wellFormed (.col2 0 0 32768) = false ∧
    wellFormed (.col2 0 0 (-32768)) = true ∧ wellFormed (.col2 0 0 (-32769)) = false := by decide

/-! ### Decoding: words written out from R50 to R53, field by field -/

/-- Format W: OP 0001, Z0, Z1, SLOT 001, VALUE. -/
theorem test_decode_chwr :
    decode .b (0b0001#4 ++ 0#12 ++ 0#13 ++ 0b001#3 ++ 0b11111111100000000000000000000000#32) = .ok (.chwr 1 0xFF800000#32) := by
  decide
theorem test_decode_chwr_word : decode .b 0x10000004FFFFFFFF#64 = .ok (.chwr 4 0xFFFFFFFF#32) := by decide
/-- Format P: OP 0010, Z0, Z1, DT. -/
theorem test_decode_prep : decode .h (0b0010#4 ++ 0#12 ++ 0#16 ++ 0b1111101000#32) = .ok (.prep 1000) := by decide
theorem test_decode_prep_negative : decode .h 0x20000000FFFFFFFB#64 = .ok (.prep (-5)) := by decide
/-- Format 1: OP 0100, Z0, INDEX, COUNT, Z1. -/
theorem test_decode_col1 : decode .h (0b0100#4 ++ 0#12 ++ 0b110010#16 ++ 0b1100100#16 ++ 0#16) = .ok (.col1 50 100) := by
  decide
/-- Format 2: OP 0101, Z0, INDEX, X, Y. -/
theorem test_decode_col2 :
    decode .h (0b0101#4 ++ 0#12 ++ 0b111#16 ++ 0b0100000000000000#16 ++ 0b1111000000000001#16) = .ok (.col2 7 16384 (-4095)) := by
  decide
/-- 95_test_vectors.md 2.9: reserved opcodes. -/
theorem test_decode_reserved : decode .h 0#64 = .error .reservedOpcode ∧
    decode .h 0x3000000000000000#64 = .error .reservedOpcode ∧ decode .b 0x6000000000000000#64 = .error .reservedOpcode ∧
    decode .h 0xFFFFFFFFFFFFFFFF#64 = .error .reservedOpcode := by decide
/-- 95_test_vectors.md 2.9: a command on the other port. -/
theorem test_decode_wrong_port : decode .h 0x1000000000000001#64 = .error .wrongPort ∧
    decode .b 0x2000000000000000#64 = .error .wrongPort ∧ decode .b 0x4000000100020000#64 = .error .wrongPort ∧
    decode .b 0x5000000100020003#64 = .error .wrongPort := by decide
/-- 95_test_vectors.md 2.9: nonzero must-be-zero fields. -/
theorem test_decode_must_be_zero : decode .b 0x1001000000000001#64 = .error .nonzeroMustBeZero ∧
    decode .b 0x1000000800000001#64 = .error .nonzeroMustBeZero ∧ decode .h 0x2000000100000000#64 = .error .nonzeroMustBeZero ∧
    decode .h 0x4000000100020001#64 = .error .nonzeroMustBeZero ∧
    decode .h 0x5800000100020003#64 = .error .nonzeroMustBeZero := by decide
/-- The words of the programs of 95_test_vectors.md section 3. -/
theorem test_encode : encode (.chwr 3 0x007F0000#32) = 0x10000003007F0000#64 ∧ encode (.prep (-5)) = 0x20000000FFFFFFFB#64 ∧
    encode (.col1 4 8) = 0x4000000400080000#64 ∧ encode (.col2 1 0 0x2000) = 0x5000000100002000#64 := by decide
/-- The rows of opcode_table.json, each with a word of its operands. -/
theorem test_table_rows : decodeTableWord 64 0x1000000700000001 = some (.chwr 7 1#32) ∧
    decodeTableWord 64 0x2000000000000000 = some (.prep 0) ∧ decodeTableWord 64 0x4000000000000000 = some (.col1 0 0) ∧
    decodeTableWord 64 0x500000074000F001 = some (.col2 7 16384 (-4095)) ∧
    decodeTableWord 64 0x3000000000000000 = none := by decide

/-! ### One step of each command -/

/-- 95_test_vectors.md 2.3: the largest slot, stored unclamped. -/
theorem test_chwr_writes :
    (nextOf (step (fresh .strobe5 [.command .b 0x10000004FFFFFFFF#64]))).map (fun t => (t.ch, t.errSlot)) =
      some ([(4, 0xFFFFFFFF#32)], false) := by decide
/-- 95_test_vectors.md 2.3: a slot that does not exist in PASS3. -/
theorem test_chwr_missing_slot :
    (nextOf (step (fresh .pass3 [.command .b 0x1000000300FF0000#64]))).map (fun t => (t.ch, t.errSlot, t.errIll)) =
      some ([], true, false) := by decide
/-- R72's example, PREP 1000 on the slots of scenario S1. -/
theorem test_prep_hold :
    (nextOf (step (filled .strobe5 slotsS1 [.command .h 0x20000000000003E8#64]))).map
        (fun t => (obs t, t.stFV, t.stHold, t.stWave)) = some (0xBF00007F007F0000#64, true, true, true) := by decide
/-- R92's example: from ACC = 382 one tick ends the on-window. -/
theorem test_prep_leaves_window :
    (nextOf (step { filled .strobe5 slotsS2 [.command .h 0x2000000000000001#64] with acc := 382#16 })).map
        (fun t => (t.fsQ, t.fsE, t.acc, t.stHold, t.stWave)) = some (255#8, 0#8, 383#16, false, false) := by decide
/-- 95_test_vectors.md 2.8: inside the band, in STROBE5. -/
theorem test_col1_band :
    (nextOf (step { prepared .strobe5 .green with inputs := [.command .h 0x4000003200640000#64] })).map (·.responses) =
      some [0x17F7F7F#25] := by decide
/-- 95_test_vectors.md 2.8: outside it, in PACKED2 with PACKED_G_SRC = RED. -/
theorem test_col1_red :
    (nextOf (step { prepared .packed2 .red with inputs := [.command .h 0x4000000A00640000#64] })).map (·.responses) =
      some [0x0BFBF05#25] := by decide
/-- 95_test_vectors.md 2.8: INDEX and X at their ends are ignored. -/
theorem test_col2_band :
    (nextOf (step { prepared .strobe5 .green with inputs := [.command .h 0x5000FFFF7FFF0FFF#64] })).map (·.responses) =
      some [0x17F7F7F#25] := by decide
/-- 95_test_vectors.md 2.8: y = 0.125 is outside. -/
theorem test_col2_edge :
    (nextOf (step { prepared .strobe5 .green with inputs := [.command .h 0x5000000000001000#64] })).map (·.responses) =
      some [0x0BF0A05#25] := by decide
/-- 95_test_vectors.md 2.9: an illegal COL1 sets ERR.ILL and answers nothing. -/
theorem test_illegal_col1 :
    nextOf (step (fresh .strobe5 [.command .h 0x4000000100020001#64])) = some { fresh .strobe5 [] with errIll := true } := by
  decide
/-- R140: strap 2 selects PACKED2, pin 1 selects RED, and the error flag is cleared. -/
theorem test_reset :
    nextOf (step { fresh .strobe5 [.reset 2#2 1#1] with errIll := true }) = some (State.resetWith .packed2 .red) := by decide
/-- R141. -/
theorem test_reset_reserved : refusalOf (step (fresh .strobe5 [.reset 3#2 0#1])) = some .reservedVariantStrap := by decide
/-- A table word placed by the host is the next command that runs. -/
theorem test_with_fetch_word :
    nextOf (step (State.reset.withFetchWord 64 0x10000004FFFFFFFF)) = nextOf (exec (.chwr 4 0xFFFFFFFF#32) State.reset) := by
  decide

/-! ### Operands, memory and notation -/

/-- 95_test_vectors.md 2.1. -/
theorem test_dec8 : dec8 0x007F8000#32 = 127#8 ∧ dec8 0x01000000#32 = 255#8 ∧ dec8 0xFFFFFFFF#32 = 0#8 ∧
    dec8 0x0000FFFF#32 = 0#8 := by decide
/-- 95_test_vectors.md 2.2. -/
theorem test_packed : hiByte 0xABCDEF80#32 = 171#8 ∧ loByte 0xABCDEF80#32 = 205#8 ∧ frByte 0xABCDEF80#32 = 240#8 := by decide
/-- 95_test_vectors.md 2.4. -/
theorem test_period : period 1#8 = 38115 ∧ period 128#8 = 20970 ∧ period 255#8 = 3825 := by decide
/-- The smallest elapsed time and the largest (95_test_vectors.md 2.5). -/
theorem test_acc : accAfter 5225#16 128#8 2147483647 = 14082#16 ∧ accAfter 100#16 255#8 (-2147483648) = 100#16 := by decide
/-- 95_test_vectors.md 2.6, the ends of the band at the largest COUNT. -/
theorem test_band1 : band1 .strobe5 24575 65535 = false ∧ band1 .strobe5 24576 65535 = true ∧
    band1 .strobe5 40959 65535 = true ∧ band1 .strobe5 40960 65535 = false ∧ band1 .pass3 24576 65535 = false := by decide
/-- A write in the middle keeps the order, and writing the reset value removes the entry. -/
theorem test_memory : Memory.write [(0, 1#32), (4, 2#32)] 3 5#32 = [(0, 1#32), (3, 5#32), (4, 2#32)] ∧
    Memory.write [(0, 1#32), (4, 2#32)] 0 0#32 = [(4, 2#32)] ∧ Memory.read [(0, 1#32), (4, 2#32)] 4 = 2#32 ∧
    Memory.read [(0, 1#32), (4, 2#32)] 3 = 0#32 := by decide
theorem test_reset_memory : Memory.wf State.reset.ch := by decide
/-- Two lines of program P4 (95_test_vectors.md section 3). -/
theorem test_assembler :
    assembleLine ['B', ':', ' ', 'C', 'H', 'P', 'A', 'C', 'K', ' ', '0', ',', ' ', '1', '2', '8', ',', '6', '4', ',', '3', '2'] =
      some [.command .b 0x1000000080402000#64] ∧
    assembleLine ['C', 'O', 'L', '2', ' ', '1', ',', ' ', '0', ',', ' ', '0', 'x', '2', '0', '0', '0', ' ', ';', 'x'] =
      some [.command .h 0x5000000100002000#64] := by decide
/-- P1's end state on the pins (95_test_vectors.md section 3). -/
theorem test_pins : obs { prepared .strobe5 .green with fsG := 0#8, fsB := 0#8, fsI := 127#8 } = 0xBF00007F007F0000#64 := by
  decide

/-! ### Witnesses: for each obligation with hypotheses, a case that meets them all, one for each clause and boundary -/

/-- The next move is a command word, so not a reset. -/
theorem noReset_command {s : State} {p : Port} {c : CmdWord} {rest : List Input} (h : s.inputs = .command p c :: rest) :
    NoResetNext s := by
  intro v g r hr
  rw [h] at hr
  cases hr

/-- A reset state has the invariant, as in `Obligations.ResetHasTheInvariant`'s first clause at one variant. -/
theorem stateInv_strobe5 (l : List Input) : StateInv (fresh .strobe5 l) where
  buffer := ⟨⟨.nil, by intro c hc; cases hc⟩, by intro c hc; cases hc⟩
  accRange := Nat.zero_le _
  effect := by intro h; cases h
  noEffect := by intro h; cases h
  beforeFirstPrep := by intro _; exact ⟨rfl, rfl, rfl, rfl, rfl, rfl, rfl, rfl, rfl⟩

theorem witness_DecodeInvertsEncode : WellFormed (.chwr 7 0xFFFFFFFF#32) ∧ WellFormed (.prep (-2147483648)) ∧
    WellFormed (.prep 2147483647) ∧ WellFormed (.col1 65535 65535) ∧ WellFormed (.col2 65535 (-32768) 32767) := by decide
theorem witness_EncodeInvertsDecode : decode .b 0x1000000700000001#64 = .ok (.chwr 7 1#32) ∧
    decode .h 0x2000000080000000#64 = .ok (.prep (-2147483648)) ∧ decode .h 0x4000FFFFFFFF0000#64 = .ok (.col1 65535 65535) ∧
    decode .h 0x5000FFFF80007FFF#64 = .ok (.col2 65535 (-32768) 32767) := by decide
theorem witness_DecoderFollowsTheFieldTables :
    (∃ c c' : CmdWord, decode .b c = .ok (.chwr 7 1#32) ∧ decode .b c' = .ok (.chwr 7 1#32)) ∧
    fieldOf 0x1000000700000001#64 63 60 = 1 ∧ fieldOf 0x2000000000000000#64 63 60 = 2 ∧
    fieldOf 0x4000000000000000#64 63 60 = 4 ∧ fieldOf 0x5000000000000000#64 63 60 = 5 :=
  ⟨⟨0x1000000700000001#64, 0x1000000700000001#64, by decide, by decide⟩, by decide⟩
/-- A state that meets the hypothesis on the moves, for every word and port. -/
theorem witness_IllegalWordsSetOnlyTheirFlag (p : Port) (c : CmdWord) :
    (fresh .strobe5 [.command p c]).inputs = .command p c :: [] := rfl
/-- R55 (1): the reserved opcodes beside the legal ones, and the last. -/
theorem witness_IllegalWords_reserved : ReservedOp 0#64 ∧ ReservedOp 0x3000000000000000#64 ∧
    ReservedOp 0x6000000000000000#64 ∧ ReservedOp 0xFFFFFFFFFFFFFFFF#64 := by
  unfold ReservedOp
  decide
/-- R55 (2): both ports. -/
theorem witness_IllegalWords_port :
    (¬ ReservedOp 0x1000000000000001#64 ∧ OnWrongPort .h 0x1000000000000001#64) ∧
    (¬ ReservedOp 0x2000000000000000#64 ∧ OnWrongPort .b 0x2000000000000000#64) := by
  unfold ReservedOp OnWrongPort
  decide
/-- R55 (3): the lowest bit of Z1 of CHWR. -/
theorem witness_IllegalWords_z1 : ¬ ReservedOp 0x1000000800000001#64 ∧ ¬ OnWrongPort .b 0x1000000800000001#64 ∧
    MustBeZeroBroken 0x1000000800000001#64 := by
  unfold ReservedOp OnWrongPort MustBeZeroBroken
  decide
/-- R55 (3): the highest bit of Z0. -/
theorem witness_IllegalWords_z0 : ¬ ReservedOp 0x5800000100020003#64 ∧ ¬ OnWrongPort .h 0x5800000100020003#64 ∧
    MustBeZeroBroken 0x5800000100020003#64 := by
  unfold ReservedOp OnWrongPort MustBeZeroBroken
  decide
/-- A legal word. -/
theorem witness_IllegalWords_legal : ¬ ReservedOp 0x4000000400080000#64 ∧ ¬ OnWrongPort .h 0x4000000400080000#64 ∧
    ¬ MustBeZeroBroken 0x4000000400080000#64 := by
  unfold ReservedOp OnWrongPort MustBeZeroBroken
  decide
/-- The first slot that does not exist in STROBE5. -/
theorem witness_IllegalWords_slot : fieldOf 0x1000000500000001#64 63 60 = 1 ∧ ¬ OnWrongPort .b 0x1000000500000001#64 ∧
    ¬ MustBeZeroBroken 0x1000000500000001#64 ∧ nch .strobe5 ≤ fieldOf 0x1000000500000001#64 34 32 := by
  unfold OnWrongPort MustBeZeroBroken
  decide
theorem witness_StepRunsDecodedInstruction :
    (fresh .strobe5 [.command .h 0x4000000400080000#64]).inputs = .command .h 0x4000000400080000#64 :: [] ∧
    decode .h 0x4000000400080000#64 = .ok (.col1 4 8) := by decide
theorem witness_IdleBlockHoldsItsState : State.reset.inputs = [] := by decide
theorem witness_ResetSamplesTheStraps : (fresh .pass3 [.reset 0#2 1#1]).inputs = .reset 0#2 1#1 :: [] ∧ (0#2 : BitVec 2) ≠ 3#2 ∧
    (2#2 : BitVec 2) ≠ 3#2 := by decide
theorem witness_ReservedStrapIsRefused : (fresh .pass3 [.reset 3#2 0#1]).inputs = .reset 3#2 0#1 :: [] := by decide
theorem witness_StrapsChangeOnlyAtReset : ∃ t, NoResetNext (fresh .packed2 [.command .h 0x2000000000000000#64]) ∧
    step (fresh .packed2 [.command .h 0x2000000000000000#64]) = .next t := ⟨_, noReset_command rfl, rfl⟩
theorem witness_Dec8InvertsChannelEncoding : (0 ≤ 255 ∧ 255 ≤ 255) ∧
    dec8 (BitVec.ofNat 32 (255 * 65536)) = dec8 (BitVec.ofNat 32 (255 * 65536)) ∧
    (0xFFFFFFFF#32).toInt ≤ (0x00FF0000#32).toInt := by decide
theorem witness_PseudoCommandsStoreTheirOperands : (255 ≤ 255) ∧ (0 < 1) := by decide
/-- The first and the last slot of STROBE5. -/
theorem witness_ChwrWritesExactlyOneSlot : Memory.wf (filled .strobe5 slotsS1 []).ch ∧
    0 < nch (filled .strobe5 slotsS1 []).variant ∧ 4 < nch (filled .strobe5 slotsS1 []).variant := by decide
/-- The first slot that does not exist, in each variant, and the last address. -/
theorem witness_ChwrToMissingSlotSetsSlotFlag : nch (fresh .pass3 []).variant ≤ 3 ∧ nch (fresh .strobe5 []).variant ≤ 5 ∧
    nch (fresh .packed2 []).variant ≤ 2 ∧ nch (fresh .strobe5 []).variant ≤ 7 := by decide
theorem witness_OnlyChwrChangesSlots : ∃ t, Memory.wf (fresh .strobe5 [.command .b 0x1000000400000001#64]).ch ∧
    NoResetNext (fresh .strobe5 [.command .b 0x1000000400000001#64]) ∧
    step (fresh .strobe5 [.command .b 0x1000000400000001#64]) = .next t ∧
    t.ch.read 4 ≠ (fresh .strobe5 [.command .b 0x1000000400000001#64]).ch.read 4 :=
  ⟨_, by decide, noReset_command rfl, rfl, by decide⟩
theorem witness_PrepInPassThrough : (filled .pass3 [(0, 0x00800000#32)] []).variant = .pass3 := by decide
theorem witness_PassThroughNeverTouchesTheEffect : ∃ t, effectEn (fresh .pass3 [.command .h 0x2000000000003039#64]).variant = false ∧
    EffectZero (fresh .pass3 [.command .h 0x2000000000003039#64]) ∧
    (∀ x ∈ (fresh .pass3 [.command .h 0x2000000000003039#64]).inputs.take 1, ¬ IsReset x) ∧
    RunsTo 1 (fresh .pass3 [.command .h 0x2000000000003039#64]) t :=
  ⟨_, by decide, ⟨rfl, rfl, rfl, rfl, rfl, rfl⟩, by simp [fresh, IsReset], rfl⟩
/-- Both branches: rate code 0 and rate code 255. -/
theorem witness_PrepRunsTheEffectStep : effectEn (filled .strobe5 slotsS1 []).variant = true ∧
    (decodeChannels .strobe5 slotsS1).q = 0#8 ∧ effectEn (filled .strobe5 slotsS2 []).variant = true ∧
    (decodeChannels .strobe5 slotsS2).q ≠ 0#8 := by decide
theorem witness_RateZeroHoldsTheEffectOn : effectEn (filled .strobe5 slotsS1 []).variant = true ∧
    (decodeChannels (filled .strobe5 slotsS1 []).variant (filled .strobe5 slotsS1 []).ch).q = 0#8 ∧
    (filled .strobe5 slotsS1 []).variant = .strobe5 ∧ effectEn (fresh .packed2 []).variant = true ∧
    (fresh .packed2 []).variant = .packed2 := by decide
theorem witness_PeriodIsTheLinearMap : (1#8 : Code8) ≠ 0#8 ∧ (255#8 : Code8) ≠ 0#8 ∧ (1#8).toNat < (255#8).toNat := by decide
theorem witness_OnWindowIsATenthOfThePeriod : (1#8 : Code8) ≠ 0#8 ∧ (255#8 : Code8) ≠ 0#8 := by decide
theorem witness_NegativeElapsedTimeCountsAsZero : (-1 : Int) < 0 ∧ (2147483647 : Int) ≤ 2147483647 ∧
    (filled .strobe5 slotsS2 []).acc.toNat < period (decodeChannels .strobe5 slotsS2).q := by decide
/-- A run of two PREPs, the second with the largest elapsed time. -/
theorem witness_EffectIsPeriodicAtConstantRate :
    (∃ s : State, effectEn s.variant = true ∧ (decodeChannels s.variant s.ch).q ≠ 0#8 ∧ ([382, 2147483647] : List Nat) ≠ [] ∧
      (∀ x ∈ ([382, 2147483647] : List Nat), x < 2 ^ 31) ∧
      s.inputs = ([382, 2147483647] : List Nat).map (fun x : Nat => offer (.prep (x : Int))) ++ []) ∧
    (0 : Int) ≤ 0 ∧ effectEn (filled .strobe5 slotsS2 []).variant = true ∧ (decodeChannels .strobe5 slotsS2).q ≠ 0#8 :=
  ⟨⟨filled .strobe5 slotsS2 (([382, 2147483647] : List Nat).map (fun x : Nat => offer (.prep (x : Int)))), by decide, by decide,
    by decide, by decide, by decide⟩, by decide, by decide, by decide⟩
theorem witness_HoldKeepsThePhase :
    (∃ s : State, effectEn s.variant = true ∧ (decodeChannels s.variant s.ch).q = 0#8 ∧
      ([-2147483648, 2147483647] : List Int) ≠ [] ∧
      (∀ x ∈ ([-2147483648, 2147483647] : List Int), -2147483648 ≤ x ∧ x ≤ 2147483647) ∧
      s.inputs = ([-2147483648, 2147483647] : List Int).map (fun x => offer (.prep x)) ++ []) ∧
    ∃ s : State, effectEn s.variant = true ∧ s.acc = 0#16 ∧ (0 : Int) ≤ 382 ∧ (decodeChannels s.variant s.ch).q ≠ 0#8 ∧
      (10 * 382 : Int) < period (decodeChannels s.variant s.ch).q :=
  ⟨⟨filled .strobe5 slotsS1 (([-2147483648, 2147483647] : List Int).map (fun x => offer (.prep x))), by decide, by decide,
    by decide, by decide, by decide⟩, filled .strobe5 slotsS2 [], by decide, by decide, by decide, by decide, by decide⟩
theorem witness_PhaseMovesOnlyOnPrep : ∃ t, NoResetNext (filled .strobe5 slotsS2 [.command .h 0x2000000000000001#64]) ∧
    step (filled .strobe5 slotsS2 [.command .h 0x2000000000000001#64]) = .next t ∧
    t.acc ≠ (filled .strobe5 slotsS2 [.command .h 0x2000000000000001#64]).acc :=
  ⟨_, noReset_command rfl, rfl, by decide⟩
theorem witness_FrameValidMeansAPrepRan : ∃ t, (fresh .strobe5 [.command .h 0x2000000000000001#64]).stFV = false ∧
    (∀ x ∈ (fresh .strobe5 [.command .h 0x2000000000000001#64]).inputs.take 1, ¬ IsReset x) ∧
    RunsTo 1 (fresh .strobe5 [.command .h 0x2000000000000001#64]) t := ⟨_, rfl, by simp [fresh, IsReset], rfl⟩
theorem witness_Band1IsTheCentredQuarter : 0 < 100 ∧ 8 * 3 = 3 * 8 ∧ 8 * 5 = 5 * 8 ∧ regionEn .strobe5 = true ∧
    band1 .strobe5 38 100 = true ∧ band1 .strobe5 62 100 = true := by decide
theorem witness_Band2IsTheCentredBand : band2 .strobe5 4095 = true ∧ band2 .packed2 (-4095) = true := by decide
theorem witness_BandLaws : regionEn .strobe5 = true ∧ regionEn .pass3 = false ∧ (0 < 8 ∧ 2 * 4 = 8) ∧ 8 * 3 ≤ 3 * 8 ∧
    5 * 8 ≤ 8 * 5 ∧ ((-4096 : Int) ≤ -4096) ∧ ((4096 : Int) ≤ 4096) := by decide
theorem witness_MalformedDescriptorsGetTheBaseColour : 0 ≤ 0 ∧ 65535 ≤ 65535 ∧ regionEn .packed2 = true := by decide
theorem witness_Col2IgnoresIndexAndX : (-16385 : Int) < -16384 ∧ (16384 : Int) < 16385 := by decide
theorem witness_ResponsesAndTheirLayout : ∃ t, exec (.col1 4 8) (fresh .strobe5 []) = .next t := ⟨_, rfl⟩
theorem witness_PassThroughShowsOneColour : ∃ s : State, s.variant = .pass3 ∧ s.ch.read 0 = 0x00800000#32 ∧
    s.ch.read 1 = 0x00400000#32 ∧ s.ch.read 2 = 0x00200000#32 :=
  ⟨filled .pass3 [(0, 0x00800000#32), (1, 0x00400000#32), (2, 0x00200000#32)] [], by decide⟩
theorem witness_ColourBeforeFirstPrepIsBlack : StateInv (fresh .strobe5 []) ∧ (fresh .strobe5 []).stFV = false :=
  ⟨stateInv_strobe5 [], rfl⟩
theorem witness_GreenStrapOnlyReachesPackedResponses : (∃ t, exec (.col1 10 100) (prepared .packed2 .green) = .next t) ∧
    (∃ t, exec (.col1 10 100) (prepared .strobe5 .green) = .next t) ∧ (prepared .strobe5 .green).variant ≠ .packed2 :=
  ⟨⟨_, rfl⟩, ⟨_, rfl⟩, by decide⟩
theorem witness_InvariantKeptByEveryStep : ∃ t, StateInv (fresh .strobe5 [.command .h 0x2000000000000001#64]) ∧
    step (fresh .strobe5 [.command .h 0x2000000000000001#64]) = .next t := ⟨_, stateInv_strobe5 _, rfl⟩
theorem witness_ErrorFlagsAreSticky : ∃ s t : State, NoResetNext s ∧ step s = .next t ∧ s.errIll = true ∧ s.errSlot = true :=
  ⟨{ fresh .strobe5 [.command .h 0x2000000000000001#64] with errIll := true, errSlot := true }, _, noReset_command rfl, rfl, rfl,
    rfl⟩
/-- A CHWR to slot 5; then slot 7 on port H, and slot 7 with a nonzero Z1 on port B (R125). -/
theorem witness_AtMostOneCausePerCommand :
    (∃ t, NoResetNext (fresh .strobe5 [.command .b 0x1000000500000001#64]) ∧
      step (fresh .strobe5 [.command .b 0x1000000500000001#64]) = .next t ∧ t.errSlot ≠ false) ∧
    fieldOf 0x1000000700000001#64 63 60 = 1 ∧ fieldOf 0x1000000F00000001#64 63 60 = 1 ∧ fieldOf 0x1000000F00000001#64 47 35 ≠ 0 :=
  ⟨⟨_, noReset_command rfl, rfl, by decide⟩, by decide, by decide, by decide⟩
/-- A word that raises ILL, a CHWR that raises SLOT, a command that raises nothing, no move at all, and a reset. -/
theorem witness_ErrorFlagsGateNothing :
    (∃ t, step (fresh .strobe5 [.command .h 0#64]) = .next t ∧ NoResetNext (fresh .strobe5 [.command .h 0#64])) ∧
    (∃ t, step (fresh .strobe5 [.command .b 0x1000000500000001#64]) = .next t ∧
      NoResetNext (fresh .strobe5 [.command .b 0x1000000500000001#64])) ∧
    (∃ t, step (fresh .strobe5 [.command .h 0x4000000400080000#64]) = .next t ∧
      NoResetNext (fresh .strobe5 [.command .h 0x4000000400080000#64])) ∧
    (∃ t, step State.reset = .next t ∧ NoResetNext State.reset) ∧
    ∃ t, step (fresh .strobe5 [.reset 2#2 0#1]) = .next t ∧ ¬ NoResetNext (fresh .strobe5 [.reset 2#2 0#1]) :=
  ⟨⟨_, rfl, noReset_command rfl⟩, ⟨_, rfl, noReset_command rfl⟩, ⟨_, rfl, noReset_command rfl⟩,
    ⟨_, rfl, fun _ _ _ h => nomatch h⟩, ⟨_, rfl, fun h => h _ _ _ rfl⟩⟩
theorem witness_PortsHaveFixedRights :
    (∃ t, step (fresh .strobe5 [.command .h 0x4000000400080000#64]) = .next t) ∧
    ∃ t, step (fresh .strobe5 [.command .b 0x1000000500000001#64]) = .next t := ⟨⟨_, rfl⟩, ⟨_, rfl⟩⟩
theorem witness_CommandsWriteOnlyTheirElements : (∃ t, exec (.chwr 4 1#32) (fresh .strobe5 []) = .next t) ∧
    (∃ t, exec (.chwr 5 1#32) (fresh .strobe5 []) = .next t) ∧ 4 < nch .strobe5 ∧ nch .strobe5 ≤ 5 ∧
    (∃ t, exec (.prep 1) (fresh .pass3 []) = .next t) ∧ effectEn .pass3 = false ∧
    (∃ t, exec (.prep 1) (filled .strobe5 slotsS1 []) = .next t) ∧ (decodeChannels .strobe5 slotsS1).q = 0#8 ∧
    (∃ t, exec (.col1 4 8) (fresh .strobe5 []) = .next t) ∧ ∃ t, exec (.col2 0 0 0) (fresh .strobe5 []) = .next t :=
  ⟨⟨_, rfl⟩, ⟨_, rfl⟩, by decide, by decide, ⟨_, rfl⟩, by decide, ⟨_, rfl⟩, by decide, ⟨_, rfl⟩, ⟨_, rfl⟩⟩
theorem witness_ColourRunsArePure : ∃ s : State,
    (∀ i ∈ [Instr.col1 65535 65535, Instr.col2 0 0 (-32768), Instr.col1 65535 65535],
      WellFormed i ∧ (i.opcode = .col1 ∨ i.opcode = .col2)) ∧
    s.inputs = [Instr.col1 65535 65535, Instr.col2 0 0 (-32768), Instr.col1 65535 65535].map offer ++ [] :=
  ⟨{ prepared .strobe5 .green with
      inputs := [Instr.col1 65535 65535, Instr.col2 0 0 (-32768), Instr.col1 65535 65535].map offer }, by decide, by decide⟩
/-- A late CHWR on port B in the one run, none in the other. -/
theorem witness_LateChwrDoesNotChangeColours : ∃ s s' t t' : State, SameFrame s s' ∧ SameStraps s s' ∧
    s.responses = s'.responses ∧ offeredOn .h s.inputs = offeredOn .h s'.inputs ∧ s.inputs ≠ s'.inputs ∧
    (∀ x ∈ s.inputs, ¬ IsPrep x ∧ ¬ IsReset x) ∧ (∀ x ∈ s'.inputs, ¬ IsPrep x ∧ ¬ IsReset x) ∧
    RunsTo s.inputs.length s t ∧ RunsTo s'.inputs.length s' t' := by
  refine ⟨{ prepared .strobe5 .green with inputs := [.command .b 0x1000000000C80000#64, .command .h 0x4000000A00640000#64] },
    { prepared .strobe5 .green with inputs := [.command .h 0x4000000A00640000#64] }, _, _, ⟨rfl, rfl, rfl, rfl, rfl, rfl, rfl, rfl,
    rfl, rfl⟩, ⟨rfl, rfl⟩, rfl, rfl, by decide, ?_, ?_, rfl, rfl⟩
  · intro x hx
    simp only [List.mem_cons, List.not_mem_nil, or_false] at hx
    rcases hx with rfl | rfl
    · refine ⟨?_, fun h => h⟩
      rintro ⟨dt, h⟩
      have : decode .b 0x1000000000C80000#64 = .ok (.chwr 0 0x00C80000#32) := by decide
      rw [this] at h; cases h
    · refine ⟨?_, fun h => h⟩
      rintro ⟨dt, h⟩
      have : decode .h 0x4000000A00640000#64 = .ok (.col1 10 100) := by decide
      rw [this] at h; cases h
  · intro x hx
    simp only [List.mem_cons, List.not_mem_nil, or_false] at hx
    subst hx
    refine ⟨?_, fun h => h⟩
    rintro ⟨dt, h⟩
    have : decode .h 0x4000000A00640000#64 = .ok (.col1 10 100) := by decide
    rw [this] at h; cases h
/-- The rate slot of STROBE5, with the largest elapsed time. -/
theorem witness_PrepSeesExactlyTheEarlierChwr : ∃ s s' : State, Memory.wf s.ch ∧ 4 < nch s.variant ∧ s.variant = .strobe5 ∧
    (-2147483648 : Int) ≤ 2147483647 ∧ (2147483647 : Int) ≤ 2147483647 ∧
    s.inputs = offer (.chwr 4 0x00640000#32) :: offer (.prep 2147483647) :: [] ∧
    s' = { s with inputs := offer (.prep 2147483647) :: offer (.chwr 4 0x00640000#32) :: [] } :=
  ⟨fresh .strobe5 [offer (.chwr 4 0x00640000#32), offer (.prep 2147483647)], fresh .strobe5 [offer (.prep 2147483647), offer (.chwr 4 0x00640000#32)], by decide, by decide, rfl, by decide, by decide, rfl, rfl⟩
/-- The effect slot of PACKED2, with the smallest elapsed time. -/
theorem witness_PrepSees_packedEffect : ∃ s s' : State, Memory.wf s.ch ∧ 1 < nch s.variant ∧ s.variant = .packed2 ∧
    (-2147483648 : Int) ≤ (-2147483648) ∧ ((-2147483648) : Int) ≤ 2147483647 ∧
    s.inputs = offer (.chwr 1 0x00640000#32) :: offer (.prep (-2147483648)) :: [] ∧
    s' = { s with inputs := offer (.prep (-2147483648)) :: offer (.chwr 1 0x00640000#32) :: [] } :=
  ⟨fresh .packed2 [offer (.chwr 1 0x00640000#32), offer (.prep (-2147483648))], fresh .packed2 [offer (.prep (-2147483648)), offer (.chwr 1 0x00640000#32)], by decide, by decide, rfl, by decide, by decide, rfl, rfl⟩
/-- A colour slot where EFFECT_EN = 0. -/
theorem witness_PrepSees_colour : ∃ s s' : State, Memory.wf s.ch ∧ 2 < nch s.variant ∧ s.variant = .pass3 ∧
    (-2147483648 : Int) ≤ 0 ∧ (0 : Int) ≤ 2147483647 ∧
    s.inputs = offer (.chwr 2 0x00640000#32) :: offer (.prep 0) :: [] ∧
    s' = { s with inputs := offer (.prep 0) :: offer (.chwr 2 0x00640000#32) :: [] } :=
  ⟨fresh .pass3 [offer (.chwr 2 0x00640000#32), offer (.prep 0)], fresh .pass3 [offer (.prep 0), offer (.chwr 2 0x00640000#32)], by decide, by decide, rfl, by decide, by decide, rfl, rfl⟩
theorem witness_StepsKeepPortOrder : ∃ t, step (fresh .strobe5 [.command .b 0x1000000500000001#64, .command .h 0#64]) = .next t :=
  ⟨_, rfl⟩
theorem witness_EveryOfferedMoveIsExecuted :
    ∀ x ∈ (fresh .strobe5 [.reset 2#2 0#1, .command .h 0#64]).inputs, ¬ ReservedStrap x := by simp [fresh, ReservedStrap]
/-- The last slot that exists, and one word of each command. -/
theorem witness_DutifulAgentsRaiseNoFlag : ∃ s : State, s.errIll = false ∧ s.errSlot = false ∧
    ∀ x ∈ s.inputs, Dutiful s.variant x := by
  refine ⟨fresh .strobe5 [.command .b 0x1000000400000001#64, .command .h 0x2000000000000001#64,
    .command .h 0x4000000400080000#64, .command .h 0x5000000000000000#64], rfl, rfl, ?_⟩
  have h1 : decode .b 0x1000000400000001#64 = .ok (.chwr 4 1#32) := by decide
  have h2 : decode .h 0x2000000000000001#64 = .ok (.prep 1) := by decide
  have h3 : decode .h 0x4000000400080000#64 = .ok (.col1 4 8) := by decide
  have h4 : decode .h 0x5000000000000000#64 = .ok (.col2 0 0 0) := by decide
  intro x hx
  simp only [fresh, List.mem_cons, List.not_mem_nil, or_false] at hx
  rcases hx with rfl | rfl | rfl | rfl
  · simp only [Dutiful, h1]; decide
  · simp only [Dutiful, h2]
  · simp only [Dutiful, h3]
  · simp only [Dutiful, h4]

end Sys2Proof.Tests
end

section
/-! The statements of 00_scope.md. -/

namespace Sys2Proof.Proofs

/-- Settles O8, row by row of R6's second table: in each row NCH, EFFECT_EN, REGION_EN and PACKED are the values that
their definitions give at the row's variant. -/
theorem variantTable : Obligations.VariantTable := by
  unfold Obligations.VariantTable
  refine ⟨?pass3, ?strobe5, ?packed2⟩
  case pass3 => exact ⟨rfl, rfl, rfl, rfl⟩
  case strobe5 => exact ⟨rfl, rfl, rfl, rfl⟩
  case packed2 => exact ⟨rfl, rfl, rfl, rfl⟩

end Sys2Proof.Proofs
end

section
/-! What the commands and one step can do to the Channel Buffer, the Frame State and the straps: one rule per command and
one inversion per part of the state, from which the statements about the state are derived. -/

namespace Sys2Proof.Proofs
open Sys2Proof.Machine

/-! ### The answer of each command -/

theorem exec_chwr (slot : Nat) (value : Word) (s : State) :
    exec (.chwr slot value) s = .next (if nch s.variant ≤ slot then s.raise .slot else s.writeSlot slot value) := by
  simp only [exec, execChwr]
  split <;> rfl

theorem exec_prep (dt : Int) (s : State) :
    exec (.prep dt) s = .next (prepareFrame (decodeChannels s.variant s.ch) dt s) := rfl

theorem exec_col1 (index count : Nat) (s : State) :
    exec (.col1 index count) s =
      .next (s.respond (compose (band1 s.variant index count) s) (band1 s.variant index count)) := rfl

theorem exec_col2 (index : Nat) (x y : Int) (s : State) :
    exec (.col2 index x y) s = .next (s.respond (compose (band2 s.variant y) s) (band2 s.variant y)) := rfl

/-! ### What preparing a frame leaves alone -/

/-- R21: PREP writes the Frame State and the status flags only, and sets ST.FV. -/
@[simp] theorem prepareFrame_keeps (c : Channels) (dt : Int) (s : State) :
    (prepareFrame c dt s).variant = s.variant ∧ (prepareFrame c dt s).packedGSrc = s.packedGSrc ∧
    (prepareFrame c dt s).ch = s.ch ∧ (prepareFrame c dt s).errIll = s.errIll ∧
    (prepareFrame c dt s).errSlot = s.errSlot ∧ (prepareFrame c dt s).inputs = s.inputs ∧
    (prepareFrame c dt s).responses = s.responses ∧ (prepareFrame c dt s).stFV = true := by
  cases he : effectEn s.variant with
  | false => simp [prepareFrame_noEffect c dt he]
  | true => simp [prepareFrame_effect c dt he, effectStep_eq]

/-- R93: without EFFECT_EN a PREP leaves the six effect elements. -/
theorem prepareFrame_keeps_effect (c : Channels) (dt : Int) {s : State} (he : effectEn s.variant = false) :
    (prepareFrame c dt s).fsI = s.fsI ∧ (prepareFrame c dt s).fsQ = s.fsQ ∧ (prepareFrame c dt s).fsE = s.fsE ∧
    (prepareFrame c dt s).acc = s.acc ∧ (prepareFrame c dt s).stHold = s.stHold ∧
    (prepareFrame c dt s).stWave = s.stWave := by
  simp [prepareFrame_noEffect c dt he]

/-- R89, R93: where ACC stands after a PREP. -/
theorem prepareFrame_acc (c : Channels) (dt : Int) (s : State) :
    (prepareFrame c dt s).acc = if effectEn s.variant then accAfter s.acc c.q dt else s.acc := by
  cases he : effectEn s.variant with
  | false => simp [prepareFrame_noEffect c dt he]
  | true => simp [prepareFrame_effect c dt he, effectStep_eq]

/-- R87: in hold the phase stands still. -/
theorem accAfter_hold (acc : BitVec 16) (dt : Int) : accAfter acc 0#8 dt = acc := rfl

/-! ### The operations that leave the Frame State and its flags alone -/

theorem sameFrame_refl (s : State) : SameFrame s s := ⟨rfl, rfl, rfl, rfl, rfl, rfl, rfl, rfl, rfl, rfl⟩

theorem sameFrame_writeSlot (s : State) (slot : Nat) (value : Word) : SameFrame s (s.writeSlot slot value) :=
  sameFrame_refl s

theorem sameFrame_respond (s : State) (c : Rgb) (band : Bool) : SameFrame s (s.respond c band) := sameFrame_refl s

theorem sameFrame_withInputs (s : State) (l : List Input) : SameFrame s (s.withInputs l) := sameFrame_refl s

theorem sameFrame_raise (s : State) (c : ErrorCause) : SameFrame s (s.raise c) := by simp [SameFrame]

/-- Taking a move is no change of the Frame State. -/
theorem sameFrame_of_withInputs {s t : State} {l : List Input} (h : SameFrame (s.withInputs l) t) : SameFrame s t := h

/-! ### What a command can do to each part of the state -/

/-- Everything a command that answers `t` can have done: it raised SLOT, wrote an existing slot, prepared a frame, or
answered a pixel. -/
theorem exec_next_cases {i : Instr} {s t : State} (h : exec i s = .next t) :
    (∃ slot value, i = .chwr slot value ∧ nch s.variant ≤ slot ∧ t = s.raise .slot) ∨
    (∃ slot value, i = .chwr slot value ∧ slot < nch s.variant ∧ t = s.writeSlot slot value) ∨
    (∃ dt, i = .prep dt ∧ t = prepareFrame (decodeChannels s.variant s.ch) dt s) ∨
    (∃ band, ((∃ index count, i = .col1 index count ∧ band = band1 s.variant index count) ∨
        ∃ index x y, i = .col2 index x y ∧ band = band2 s.variant y) ∧ t = s.respond (compose band s) band) := by
  rcases exec_cases i s with ⟨slot, value, hi, hs, he⟩ | ⟨slot, value, hi, hs, he⟩ | ⟨dt, hi, he⟩ | ⟨band, hi, he⟩ <;>
    have ht := (Host.Outcome.next.inj (he.symm.trans h)).symm
  case inl => exact .inl ⟨slot, value, hi, hs, ht⟩
  case inr.inl => exact .inr (.inl ⟨slot, value, hi, hs, ht⟩)
  case inr.inr.inl => exact .inr (.inr (.inl ⟨dt, hi, ht⟩))
  case inr.inr.inr => exact .inr (.inr (.inr ⟨band, hi, ht⟩))

/-- R21: only PREP writes the Frame State and its flags. -/
theorem exec_frame_cases {i : Instr} {s t : State} (h : exec i s = .next t) :
    (∃ dt, i = .prep dt ∧ t = prepareFrame (decodeChannels s.variant s.ch) dt s) ∨
    ((∀ dt, i ≠ .prep dt) ∧ SameFrame s t) := by
  rcases exec_next_cases h with ⟨_, _, rfl, -, rfl⟩ | ⟨slot, value, rfl, -, rfl⟩ | ⟨dt, rfl, rfl⟩ | ⟨band, hi, rfl⟩
  case inl => exact .inr ⟨fun _ => by simp, sameFrame_raise s .slot⟩
  case inr.inl => exact .inr ⟨fun _ => by simp, sameFrame_writeSlot s slot value⟩
  case inr.inr.inl => exact .inl ⟨dt, rfl, rfl⟩
  case inr.inr.inr =>
    refine .inr ⟨fun _ => ?_, sameFrame_respond s _ band⟩
    rcases hi with ⟨_, _, rfl, -⟩ | ⟨_, _, _, rfl, -⟩ <;> simp

/-- R21, R65: only CHWR to a slot that exists writes the Channel Buffer. -/
theorem exec_buffer_cases {i : Instr} {s t : State} (h : exec i s = .next t) :
    (∃ slot value, i = .chwr slot value ∧ slot < nch s.variant ∧ t.ch = s.ch.write slot value) ∨ t.ch = s.ch := by
  rcases exec_next_cases h with ⟨_, _, -, -, rfl⟩ | ⟨slot, value, rfl, hs, rfl⟩ | ⟨_, -, rfl⟩ | ⟨_, -, rfl⟩
  case inl => exact .inr (by simp)
  case inr.inl => exact .inl ⟨slot, value, rfl, hs, rfl⟩
  case inr.inr.inl => exact .inr (by simp)
  case inr.inr.inr => exact .inr (by simp)

/-- R18: no command writes the straps. -/
theorem exec_keeps_straps {i : Instr} {s t : State} (h : exec i s = .next t) : SameStraps s t := by
  obtain ⟨u, hu, -, hv, hg⟩ := exec_answers i s
  obtain rfl : u = t := by rw [hu] at h; injection h
  exact ⟨hv.symm, hg.symm⟩

/-! ### The port of a decoded command -/

theorem decodePayload_opcode {op : Opcode} {c : CmdWord} {i : Instr} (h : decodePayload op c = .ok i) :
    i.opcode = op := by
  cases op <;> simp only [decodePayload] at h
  case col2 => cases h; rfl
  all_goals
    split at h
    · cases h
    · cases h; rfl

/-- R48, R55: a word decodes only on its command's own port. -/
theorem port_of_decode {p : Port} {c : CmdWord} {i : Instr} (h : decode p c = .ok i) : p = portOf i.opcode := by
  unfold decode at h
  split at h
  · cases h
  · split at h
    · cases h
    · rename_i hp
      split at h
      · cases h
      · rw [decodePayload_opcode h]
        exact Decidable.not_not.1 hp

/-! ### What a step can do to each part of the state -/

/-- Without a reset, a step executes a PREP offered on port H, or leaves the Frame State and its flags alone. -/
theorem step_frame_cases {s t : State} (hn : NoResetNext s) (h : step s = .next t) :
    (∃ c rest dt, s.inputs = .command .h c :: rest ∧ decode .h c = .ok (.prep dt) ∧
      t = prepareFrame (decodeChannels s.variant s.ch) dt (s.withInputs rest)) ∨
    ((∀ x ∈ s.inputs.head?, ¬ IsPrep x) ∧ SameFrame s t) := by
  rcases step_cases h with ⟨hi, rfl⟩ | ⟨p, c, rest, i, hi, hd, he⟩ | ⟨p, c, rest, why, hi, hd, rfl⟩ |
    ⟨v, g, rest, w, hi, -, -⟩
  case inl => exact .inr ⟨by simp [hi], sameFrame_refl t⟩
  case inr.inl =>
    rcases exec_frame_cases he with ⟨dt, rfl, ht⟩ | ⟨hp, hf⟩
    · obtain rfl : p = .h := port_of_decode hd
      exact .inl ⟨c, rest, dt, hi, hd, ht⟩
    · refine .inr ⟨?_, sameFrame_of_withInputs hf⟩
      simpa [hi, IsPrep, hd] using hp
  case inr.inr.inl =>
    exact .inr ⟨by simp [hi, IsPrep, hd], sameFrame_of_withInputs (sameFrame_raise _ .ill)⟩
  case inr.inr.inr => exact absurd hi (hn v g rest)

/-- Without a reset, a step executes a CHWR to an existing slot offered on port B, or leaves the Channel Buffer alone. -/
theorem step_buffer_cases {s t : State} (hn : NoResetNext s) (h : step s = .next t) :
    (∃ c rest slot value, s.inputs = .command .b c :: rest ∧ decode .b c = .ok (.chwr slot value) ∧
      slot < nch s.variant ∧ t.ch = s.ch.write slot value) ∨ t.ch = s.ch := by
  rcases step_cases h with ⟨-, rfl⟩ | ⟨p, c, rest, i, hi, hd, he⟩ | ⟨_, _, _, _, -, -, rfl⟩ | ⟨v, g, rest, w, hi, -, -⟩
  case inl => exact .inr rfl
  case inr.inl =>
    rcases exec_buffer_cases he with ⟨slot, value, rfl, hs, hw⟩ | hc
    · obtain rfl : p = .b := port_of_decode hd
      exact .inl ⟨c, rest, slot, value, hi, hd, hs, hw⟩
    · exact .inr hc
  case inr.inr.inl => exact .inr (by simp)
  case inr.inr.inr => exact absurd hi (hn v g rest)

/-- Without a reset, a step leaves the straps alone. -/
theorem step_keeps_straps {s t : State} (hn : NoResetNext s) (h : step s = .next t) : SameStraps s t := by
  rcases step_cases h with ⟨-, rfl⟩ | ⟨_, _, rest, _, -, -, he⟩ | ⟨_, _, _, _, -, -, rfl⟩ | ⟨v, g, rest, w, hi, -, -⟩
  case inl => exact ⟨rfl, rfl⟩
  case inr.inl =>
    obtain ⟨hv, hg⟩ := exec_keeps_straps he
    exact ⟨hv, hg⟩
  case inr.inr.inl => exact ⟨by simp, by simp⟩
  case inr.inr.inr => exact absurd hi (hn v g rest)

end Sys2Proof.Proofs
end

section
/-! The invariant of R22: which operations keep it, and that every reset state has it. -/

namespace Sys2Proof.Proofs
open Sys2Proof.Machine

/-- R34: a write to an existing slot lists no slot that does not exist. -/
theorem bufferOk_write {v : Variant} {m : Memory} {slot : Nat} (hm : BufferOk v m) (hs : slot < nch v) (value : Word) :
    BufferOk v (m.write slot value) := by
  obtain ⟨hwf, hlisted⟩ := hm
  refine ⟨Memory.wf_write hwf slot value, fun c hc => ?_⟩
  rcases Memory.mem_write hc with ⟨rfl, -⟩ | hc
  · exact hs
  · exact hlisted c hc

theorem period_le {q : Code8} (hq : q ≠ 0#8) : period q ≤ 38115 := by
  have : q.toNat ≠ 0 := BitVec.toNat_ne.1 hq
  unfold period
  omega

/-- R22 (b): an effect step keeps ACC in range. -/
theorem accAfter_le {acc : BitVec 16} (ha : acc.toNat ≤ 38114) (q : Code8) (dt : Int) :
    (accAfter acc q dt).toNat ≤ 38114 := by
  rw [accAfter_toNat]
  split
  · exact ha
  · rename_i hq
    have hlt := Nat.mod_lt (acc.toNat + dtEff dt) (period_pos q)
    have hle := period_le hq
    omega

/-- R22 (c), (d): what an effect step leaves, for a rate code 0 and for any other. -/
theorem effectOk_effectStep (i q : Code8) (dt : Int) (s : State) : EffectOk (effectStep i q dt s) := by
  rw [effectStep_eq]
  refine ⟨fun (hq : q = 0#8) => ?hold, fun (hq : q ≠ 0#8) => ?running⟩
  case hold => simp [hq, holdFlag, waveFlag, brightness]
  case running =>
    have hacc : (accAfter s.acc q dt).toNat < period q := by
      rw [accAfter_toNat, if_neg hq]
      exact Nat.mod_lt _ (period_pos q)
    exact ⟨hacc, by simp [holdFlag, hq], by simp [waveFlag, hq],
      fun (hw : waveFlag q (accAfter s.acc q dt) = true) => by simp [brightness, hw],
      fun (hw : waveFlag q (accAfter s.acc q dt) = false) => by simp [brightness, hw]⟩

/-- The invariant speaks of nothing but the variant, the Channel Buffer, the Frame State and its flags. -/
theorem stateInv_of_sameFrame {s t : State} (hs : StateInv s) (hv : s.variant = t.variant) (hf : SameFrame s t)
    (hb : BufferOk t.variant t.ch) : StateInv t := by
  obtain ⟨hR, hG, hB, hI, hQ, hE, hA, hFV, hH, hW⟩ := hf
  obtain ⟨-, hacc, heffect, hno, hfirst⟩ := hs
  simp only [EffectOk, EffectZero, FrameZero, hv, hR, hG, hB, hI, hQ, hE, hA, hFV, hH, hW] at hacc heffect hno hfirst
  exact ⟨hb, hacc, heffect, hno, hfirst⟩

theorem stateInv_withInputs {s : State} (hs : StateInv s) (l : List Input) : StateInv (s.withInputs l) :=
  stateInv_of_sameFrame hs rfl (sameFrame_withInputs s l) hs.buffer

theorem stateInv_raise {s : State} (hs : StateInv s) (c : ErrorCause) : StateInv (s.raise c) :=
  stateInv_of_sameFrame hs (by simp) (sameFrame_raise s c) (by simpa using hs.buffer)

theorem stateInv_respond {s : State} (hs : StateInv s) (c : Rgb) (band : Bool) : StateInv (s.respond c band) :=
  stateInv_of_sameFrame hs rfl (sameFrame_respond s c band) hs.buffer

theorem stateInv_writeSlot {s : State} (hs : StateInv s) {slot : Nat} (hslot : slot < nch s.variant) (value : Word) :
    StateInv (s.writeSlot slot value) :=
  stateInv_of_sameFrame hs rfl (sameFrame_writeSlot s slot value) (bufferOk_write hs.buffer hslot value)

/-- A PREP establishes R22 (c) and (d) where EFFECT_EN = 1, and keeps R22 (e) where it is 0. -/
theorem stateInv_prepareFrame {s : State} (hs : StateInv s) (c : Channels) (dt : Int) :
    StateInv (prepareFrame c dt s) where
  buffer := by simpa using hs.buffer
  accRange := by
    rw [prepareFrame_acc]
    split
    · exact accAfter_le hs.accRange c.q dt
    · exact hs.accRange
  effect := fun _ he => by
    rw [prepareFrame_effect c dt (by simpa using he)]
    exact effectOk_effectStep c.i c.q dt s
  noEffect := fun he => by
    have he : effectEn s.variant = false := by simpa using he
    rw [prepareFrame_noEffect c dt he]
    exact hs.noEffect he
  beforeFirstPrep := fun hfv => by simp at hfv

/-- R23: every reset state has the invariant. -/
theorem stateInv_resetWith (v : Variant) (g : GreenSource) : StateInv (State.resetWith v g) where
  buffer := ⟨Memory.wf_nil, fun _ h => nomatch h⟩
  accRange := Nat.zero_le _
  effect := fun hfv => by simp at hfv
  noEffect := fun _ => by simp [EffectZero]
  beforeFirstPrep := fun _ => by simp [FrameZero, EffectZero]

/-- Every command keeps the invariant. -/
theorem exec_keeps_stateInv {i : Instr} {s t : State} (hs : StateInv s) (h : exec i s = .next t) : StateInv t := by
  rcases exec_next_cases h with ⟨_, _, -, -, rfl⟩ | ⟨_, value, -, hslot, rfl⟩ | ⟨dt, -, rfl⟩ | ⟨band, -, rfl⟩
  case inl => exact stateInv_raise hs .slot
  case inr.inl => exact stateInv_writeSlot hs hslot value
  case inr.inr.inl => exact stateInv_prepareFrame hs _ dt
  case inr.inr.inr => exact stateInv_respond hs _ band

end Sys2Proof.Proofs
end

section
/-! The statements of 10_state.md. -/

namespace Sys2Proof.Proofs
open Sys2Proof.Machine

/-- Settles O45: each of the four things a step can do keeps the invariant, or establishes it (reset). -/
theorem invariantKeptByEveryStep : Obligations.InvariantKeptByEveryStep := by
  intro s t hs h
  rcases step_cases h with ⟨-, rfl⟩ | ⟨p, c, rest, i, -, -, he⟩ | ⟨p, c, rest, why, -, -, rfl⟩ | ⟨v, g, rest, w, -, -, rfl⟩
  case inl => exact hs
  case inr.inl => exact exec_keeps_stateInv (stateInv_withInputs hs rest) he
  case inr.inr.inl => exact stateInv_raise (stateInv_withInputs hs rest) .ill
  case inr.inr.inr => exact stateInv_withInputs (stateInv_resetWith w _) rest

/-- Settles O46: `State.reset` is the reset state of STROBE5 and GREEN (log 1). -/
theorem resetHasTheInvariant : Obligations.ResetHasTheInvariant :=
  ⟨stateInv_resetWith, stateInv_resetWith .strobe5 .green⟩

/-- Settles O13: NCH follows VARIANT, and no step but a reset writes the straps. -/
theorem strapsChangeOnlyAtReset : Obligations.StrapsChangeOnlyAtReset := by
  intro s t hn h
  obtain ⟨hv, hg⟩ := step_keeps_straps hn h
  exact ⟨hv.symm, hg.symm, by rw [hv]⟩

/-- Settles O22: the one step that writes the buffer is a legal CHWR on port B, and a write changes only the slot it
names. -/
theorem onlyChwrChangesSlots : Obligations.OnlyChwrChangesSlots := by
  intro s t a hwf hn h hne
  rcases step_buffer_cases hn h with ⟨c, rest, slot, value, hi, hd, hslot, hw⟩ | hc
  · have ha : a = slot := by
      by_contra hne'
      exact hne (by rw [hw, Memory.read_write_other hne'])
    subst ha
    exact ⟨c, rest, value, hi, hd, hslot, by rw [hw, Memory.read_write_same hwf]⟩
  · exact absurd (by rw [hc]) hne

/-- Settles O32: ACC is part of the Frame State, so a step that moves it is a PREP, and `prepareFrame_acc` says when a PREP
moves it. -/
theorem phaseMovesOnlyOnPrep : Obligations.PhaseMovesOnlyOnPrep := by
  intro s t hn h hne
  rcases step_frame_cases hn h with ⟨c, rest, dt, hi, hd, rfl⟩ | ⟨-, hf⟩
  · rw [prepareFrame_acc] at hne
    have he : effectEn s.variant = true := by
      by_contra he
      exact hne (by simp [he])
    have hq : (decodeChannels s.variant s.ch).q ≠ 0#8 := by
      intro hq
      exact hne (by simp [hq, accAfter_hold])
    exact ⟨he, hq, c, rest, dt, hi, hd⟩
  · obtain ⟨-, -, -, -, -, -, hacc, -⟩ := hf
    exact absurd hacc.symm hne

/-- R15 over one step: ST.FV stays, and is set when the move is a PREP. -/
theorem step_stFV_iff {s t : State} (hn : NoResetNext s) (h : step s = .next t) :
    t.stFV = true ↔ s.stFV = true ∨ ∃ x ∈ s.inputs.head?, IsPrep x := by
  rcases step_frame_cases hn h with ⟨c, rest, dt, hi, hd, rfl⟩ | ⟨hp, hf⟩
  · simp [hi, IsPrep, hd]
  · obtain ⟨-, -, -, -, -, -, -, hfv, -⟩ := hf
    have hno : ¬ ∃ x ∈ s.inputs.head?, IsPrep x := fun ⟨x, hx, hx'⟩ => hp x hx hx'
    rw [hfv, or_iff_left hno]

/-- The first `n + 1` moves hold a PREP when the first one is a PREP or the next `n` hold one. -/
theorem exists_mem_take_succ (P : Input → Prop) (l : List Input) (n : Nat) :
    (∃ x ∈ l.take (n + 1), P x) ↔ (∃ x ∈ l.head?, P x) ∨ ∃ x ∈ l.tail.take n, P x := by
  cases l <;> simp

/-- R15 over a run without a reset, from any ST.FV. -/
theorem runsTo_stFV_iff {n : Nat} {s t : State} (hn : ∀ x ∈ s.inputs.take n, ¬ IsReset x) (h : RunsTo n s t) :
    t.stFV = true ↔ s.stFV = true ∨ ∃ x ∈ s.inputs.take n, IsPrep x := by
  induction n generalizing s with
  | zero =>
    obtain rfl := runsTo_zero.1 h
    simp
  | succ n ih =>
    obtain ⟨u, hu, hrun⟩ := runsTo_succ.1 h
    have hnone : ¬ ∃ x ∈ s.inputs.take (n + 1), IsReset x := fun ⟨x, hx, hr⟩ => hn x hx hr
    rw [exists_mem_take_succ, not_or] at hnone
    obtain ⟨hhead, htail⟩ := hnone
    have hnext : NoResetNext s := fun v g rest hi => hhead ⟨.reset v g, by simp [hi], trivial⟩
    have hlater : ∀ x ∈ u.inputs.take n, ¬ IsReset x := by
      rw [step_takes_one hu]
      exact fun x hx hr => htail ⟨x, hx, hr⟩
    rw [ih hlater hrun, step_stFV_iff hnext hu, step_takes_one hu, or_assoc, ← exists_mem_take_succ]

/-- Settles O33: the run law of ST.FV from ST.FV = 0. -/
theorem frameValidMeansAPrepRan : Obligations.FrameValidMeansAPrepRan := by
  intro n s t hfv hn h
  simp [runsTo_stFV_iff hn h, hfv]

/-- O51's clause on CHWR. -/
theorem chwr_frame {s t : State} {slot : Nat} {value : Word} (h : exec (.chwr slot value) s = .next t) :
    SameFrame s t ∧ SameStraps s t ∧ t.errIll = s.errIll ∧ t.inputs = s.inputs ∧ t.responses = s.responses ∧
    (∀ a, a ≠ slot → t.ch.read a = s.ch.read a) ∧ (slot < nch s.variant → t.errSlot = s.errSlot) ∧
    (nch s.variant ≤ slot → ∀ a, t.ch.read a = s.ch.read a) := by
  rw [exec_chwr] at h
  split at h <;> obtain rfl := Host.Outcome.next.inj h
  case isTrue hmissing =>
    exact ⟨sameFrame_raise s .slot, by simp [SameStraps], rfl, rfl, rfl, fun _ _ => rfl,
      fun hslot => absurd hmissing (Nat.not_le.2 hslot), fun _ _ => rfl⟩
  case isFalse hslot =>
    exact ⟨sameFrame_writeSlot s slot value, ⟨rfl, rfl⟩, rfl, rfl, rfl, fun a ha => Memory.read_write_other ha value,
      fun _ => rfl, fun hmissing => absurd hmissing hslot⟩

/-- O51's clause on PREP. -/
theorem prep_frame {s t : State} {dt : Int} (h : exec (.prep dt) s = .next t) :
    SameStraps s t ∧ t.errIll = s.errIll ∧ t.errSlot = s.errSlot ∧ t.inputs = s.inputs ∧ t.responses = s.responses ∧
    (∀ a, t.ch.read a = s.ch.read a) ∧
    (effectEn s.variant = false → t.fsI = s.fsI ∧ t.fsQ = s.fsQ ∧ t.fsE = s.fsE ∧ t.acc = s.acc ∧ t.stHold = s.stHold ∧
      t.stWave = s.stWave) ∧
    ((decodeChannels s.variant s.ch).q = 0#8 → t.acc = s.acc) := by
  rw [exec_prep] at h
  obtain rfl := Host.Outcome.next.inj h
  obtain ⟨hv, hg, hch, hill, hslot, hin, hresp, -⟩ := prepareFrame_keeps (decodeChannels s.variant s.ch) dt s
  have hhold : (decodeChannels s.variant s.ch).q = 0#8 →
      (prepareFrame (decodeChannels s.variant s.ch) dt s).acc = s.acc := by
    intro hq
    rw [prepareFrame_acc, hq, accAfter_hold, ite_self]
  exact ⟨⟨hv.symm, hg.symm⟩, hill, hslot, hin, hresp, fun a => by rw [hch], prepareFrame_keeps_effect _ dt, hhold⟩

/-- Settles O51: one clause per command; a colour command only adds its response. -/
theorem commandsWriteOnlyTheirElements : Obligations.CommandsWriteOnlyTheirElements := by
  refine ⟨fun _ _ _ _ => chwr_frame, fun _ _ _ => prep_frame, fun s t index count h => ?col1, fun s t index x y h => ?col2⟩
  case col1 =>
    rw [exec_col1] at h
    obtain rfl := Host.Outcome.next.inj h
    exact ⟨rfl, fun _ => rfl⟩
  case col2 =>
    rw [exec_col2] at h
    obtain rfl := Host.Outcome.next.inj h
    exact ⟨rfl, fun _ => rfl⟩

/-- The field of a concatenation that lies above its last part is a field of the rest. -/
theorem extractLsb'_append_above {n m : Nat} (x : BitVec n) (y : BitVec m) (k len : Nat) :
    (x ++ y).extractLsb' (k + m) len = x.extractLsb' k len := by
  rw [BitVec.extractLsb'_append_eq_of_le (Nat.le_add_left m k), Nat.add_sub_cancel]

/-- R18: the seven fields of OBS, at their places. -/
theorem obs_fields (s : State) :
    (obs s).extractLsb' 56 8 = s.fsR ∧ (obs s).extractLsb' 48 8 = s.fsG ∧ (obs s).extractLsb' 40 8 = s.fsB ∧
    (obs s).extractLsb' 32 8 = s.fsI ∧ (obs s).extractLsb' 24 8 = s.fsQ ∧ (obs s).extractLsb' 16 8 = s.fsE ∧
    (obs s).extractLsb' 0 16 = s.acc := by
  have fromE : ∀ k, (obs s).extractLsb' (k + 16) 8 = (s.fsR ++ s.fsG ++ s.fsB ++ s.fsI ++ s.fsQ ++ s.fsE).extractLsb' k 8 :=
    fun k => extractLsb'_append_above _ s.acc k 8
  have fromQ : ∀ k, (obs s).extractLsb' (k + 24) 8 = (s.fsR ++ s.fsG ++ s.fsB ++ s.fsI ++ s.fsQ).extractLsb' k 8 :=
    fun k => (fromE (k + 8)).trans (extractLsb'_append_above _ s.fsE k 8)
  have fromI : ∀ k, (obs s).extractLsb' (k + 32) 8 = (s.fsR ++ s.fsG ++ s.fsB ++ s.fsI).extractLsb' k 8 :=
    fun k => (fromQ (k + 8)).trans (extractLsb'_append_above _ s.fsQ k 8)
  have fromB : ∀ k, (obs s).extractLsb' (k + 40) 8 = (s.fsR ++ s.fsG ++ s.fsB).extractLsb' k 8 :=
    fun k => (fromI (k + 8)).trans (extractLsb'_append_above _ s.fsI k 8)
  have fromG : ∀ k, (obs s).extractLsb' (k + 48) 8 = (s.fsR ++ s.fsG).extractLsb' k 8 :=
    fun k => (fromB (k + 8)).trans (extractLsb'_append_above _ s.fsB k 8)
  exact ⟨(fromG 8).trans BitVec.extractLsb'_append_eq_left, (fromG 0).trans BitVec.extractLsb'_append_eq_right,
    (fromB 0).trans BitVec.extractLsb'_append_eq_right, (fromI 0).trans BitVec.extractLsb'_append_eq_right,
    (fromQ 0).trans BitVec.extractLsb'_append_eq_right, (fromE 0).trans BitVec.extractLsb'_append_eq_right,
    BitVec.extractLsb'_append_eq_right⟩

/-- Settles O59: OBS field by field, and ERR_ANY is the disjunction of the flags. -/
theorem pinsShowTheState : Obligations.PinsShowTheState := by
  intro s
  obtain ⟨hR, hG, hB, hI, hQ, hE, hA⟩ := obs_fields s
  exact ⟨hR, hG, hB, hI, hQ, hE, hA, rfl, rfl, rfl, rfl, rfl, rfl, Bool.or_eq_true_iff ..⟩

/-- R23, R70: an empty Channel Buffer decodes to the code 0 in every channel. -/
theorem decodeChannels_nil (v : Variant) : decodeChannels v [] = ⟨0#8, 0#8, 0#8, 0#8, 0#8⟩ := by
  cases v <;> decide

/-- R111, R112: with the colour and the effect brightness at 0 every pixel is black. -/
theorem compose_resetWith (band : Bool) (v : Variant) (g : GreenSource) :
    compose band (State.resetWith v g) = ⟨0#8, 0#8, 0#8⟩ := by
  cases band with
  | false => simp only [compose, baseColour, State.resetWith_fsR, State.resetWith_fsG, State.resetWith_fsB, ite_self]; rfl
  | true => rfl

/-- R49: the response word of a black pixel. -/
theorem responseWord_black (band : Bool) : responseWord band ⟨0#8, 0#8, 0#8⟩ = BitVec.ofBool band ++ 0#24 := by
  cases band <;> decide

/-- A colour command right after reset answers black with its band bit. -/
theorem respond_resetWith (band : Bool) (v : Variant) (g : GreenSource) :
    (State.resetWith v g).respond (compose band (State.resetWith v g)) band =
      { State.resetWith v g with responses := [BitVec.ofBool band ++ 0#24] } := by
  rw [compose_resetWith, State.respond, responseWord_black]
  rfl

/-- A PREP right after reset prepares black, held at brightness 0 where EFFECT_EN = 1. -/
theorem prepareFrame_resetWith (dt : Int) (v : Variant) (g : GreenSource) :
    prepareFrame ⟨0#8, 0#8, 0#8, 0#8, 0#8⟩ dt (State.resetWith v g) =
      { State.resetWith v g with stFV := true, stHold := effectEn v, stWave := effectEn v } := by
  cases v <;> rfl

/-- Settles O9: the table of R23, then the first PREP and the first colour command. -/
theorem resetLeavesEverythingZero : Obligations.ResetLeavesEverythingZero := by
  intro v g
  refine ⟨State.resetWith v g, rfl, fun _ => rfl, rfl, rfl, rfl, rfl, rfl, rfl, rfl, rfl, rfl, rfl, rfl, rfl, fun dt => ?prep,
    fun index count => ?col1, fun index x y => ?col2⟩
  case prep =>
    rw [exec_prep, State.resetWith_variant, State.resetWith_ch, decodeChannels_nil]
    exact congrArg Host.Outcome.next (prepareFrame_resetWith dt v g)
  case col1 => exact congrArg Host.Outcome.next (respond_resetWith (band1 v index count) v g)
  case col2 => exact congrArg Host.Outcome.next (respond_resetWith (band2 v y) v g)

end Sys2Proof.Proofs
end

section
/-! The moves on the two ports: the words offered on each, the step that takes one, the words of CHWR and PREP, and the
responses of a run within one frame. -/

namespace Sys2Proof.Proofs
open Sys2Proof.Machine

/-! ### The words offered on a port -/

@[simp] theorem offeredOn_nil (p : Port) : offeredOn p [] = [] := rfl

@[simp] theorem offeredOn_command_same (p : Port) (c : CmdWord) (l : List Input) :
    offeredOn p (.command p c :: l) = c :: offeredOn p l := by
  simp [offeredOn]

theorem offeredOn_command_other {p q : Port} (h : q ≠ p) (c : CmdWord) (l : List Input) :
    offeredOn q (.command p c :: l) = offeredOn q l := by
  simp [offeredOn, h.symm]

@[simp] theorem offeredOn_reset (p : Port) (v : BitVec 2) (g : BitVec 1) (l : List Input) :
    offeredOn p (.reset v g :: l) = offeredOn p l := rfl

theorem offeredOn_append (p : Port) (l l' : List Input) : offeredOn p (l ++ l') = offeredOn p l ++ offeredOn p l' :=
  List.filterMap_append

/-- The moves of the agent on port `p` that offers these words. -/
def movesOn (p : Port) (cs : List CmdWord) : List Input := cs.map (.command p)

theorem offeredOn_movesOn_same (p : Port) (cs : List CmdWord) : offeredOn p (movesOn p cs) = cs := by
  induction cs with
  | nil => rfl
  | cons c cs ih => exact (offeredOn_command_same p c _).trans (congrArg (c :: ·) ih)

theorem offeredOn_movesOn_other {p q : Port} (h : q ≠ p) (cs : List CmdWord) : offeredOn q (movesOn p cs) = [] := by
  induction cs with
  | nil => rfl
  | cons c cs ih => exact (offeredOn_command_other h c _).trans ih

/-! ### The step that takes a word -/

/-- R46, R56: a word that decodes is executed. -/
theorem step_legal {s : State} {p : Port} {c : CmdWord} {rest : List Input} {i : Instr}
    (hi : s.inputs = .command p c :: rest) (hd : decode p c = .ok i) : step s = exec i (s.withInputs rest) := by
  simp only [step, takeInput_cons hi, hd]

/-- R121: a word that does not decode is discarded. -/
theorem step_illegal {s : State} {p : Port} {c : CmdWord} {rest : List Input} {why : IllegalReason}
    (hi : s.inputs = .command p c :: rest) (hd : decode p c = .error why) :
    step s = .next ((s.withInputs rest).raise .ill) := by
  simp only [step, takeInput_cons hi, hd, discardIllegal]

/-- R149: whatever the word, the step that takes it answers a next state, with the other moves still to come. -/
theorem step_answers_command {s : State} {p : Port} {c : CmdWord} {rest : List Input}
    (hi : s.inputs = .command p c :: rest) : ∃ t, step s = .next t ∧ t.inputs = rest := by
  cases hd : decode p c with
  | ok i =>
    obtain ⟨t, ht, hin, -⟩ := exec_answers i (s.withInputs rest)
    exact ⟨t, (step_legal hi hd).trans ht, hin⟩
  | error why => exact ⟨_, step_illegal hi hd, by simp⟩

/-! ### The words of CHWR and PREP -/

/-- R50: the fields of the word of a CHWR. -/
theorem chwr_word_fields (slot : Nat) (value : Word) :
    opField (encode (.chwr slot value)) = opBits .chwr ∧ z0Field (encode (.chwr slot value)) = 0#12 ∧
    (encode (.chwr slot value)).extractLsb' 35 13 = 0#13 ∧
    (encode (.chwr slot value)).extractLsb' 32 3 = BitVec.ofNat 3 slot ∧
    (encode (.chwr slot value)).extractLsb' 0 32 = value := by
  have aboveValue : ∀ k len, (encode (.chwr slot value)).extractLsb' (k + 32) len =
      (opBits .chwr ++ 0#12 ++ 0#13 ++ BitVec.ofNat 3 slot).extractLsb' k len :=
    extractLsb'_append_above _ value
  have aboveSlot : ∀ k len, (encode (.chwr slot value)).extractLsb' (k + 35) len =
      (opBits .chwr ++ 0#12 ++ 0#13).extractLsb' k len :=
    fun k len => (aboveValue (k + 3) len).trans (extractLsb'_append_above _ (BitVec.ofNat 3 slot) k len)
  exact ⟨aboveSlot 25 4, aboveSlot 13 12, aboveSlot 0 13,
    (aboveValue 0 3).trans BitVec.extractLsb'_append_eq_right, BitVec.extractLsb'_append_eq_right⟩

/-- R51: the fields of the word of a PREP. -/
theorem prep_word_fields (dt : Int) :
    opField (encode (.prep dt)) = opBits .prep ∧ z0Field (encode (.prep dt)) = 0#12 ∧
    (encode (.prep dt)).extractLsb' 32 16 = 0#16 ∧ (encode (.prep dt)).extractLsb' 0 32 = BitVec.ofInt 32 dt := by
  have aboveDt : ∀ k len, (encode (.prep dt)).extractLsb' (k + 32) len =
      (opBits .prep ++ 0#12 ++ 0#16).extractLsb' k len :=
    extractLsb'_append_above _ (BitVec.ofInt 32 dt)
  exact ⟨aboveDt 28 4, aboveDt 16 12, aboveDt 0 16, BitVec.extractLsb'_append_eq_right⟩

/-- R6, R50: the address of an existing slot fits its field. -/
theorem slot_fits_field {v : Variant} {slot : Nat} (h : slot < nch v) : slot < 8 := by
  cases v <;> simp only [nch] at h <;> omega

/-- R54, R56: the word of a CHWR whose slot address fits its field decodes to that CHWR. -/
theorem decode_chwr_word {slot : Nat} (hs : slot < 8) (value : Word) :
    decode .b (encode (.chwr slot value)) = .ok (.chwr slot value) := by
  obtain ⟨hop, hz0, hz1, hslot, hvalue⟩ := chwr_word_fields slot value
  have hopcode : opcodeOf (opBits .chwr) = some .chwr := rfl
  simp [decode, decodePayload, portOf, hop, hopcode, hz0, hz1, hslot, hvalue, Nat.mod_eq_of_lt hs]

/-- R54, R56: the word of a PREP whose elapsed time fits its field decodes to that PREP. -/
theorem decode_prep_word {dt : Int} (hlo : -2147483648 ≤ dt) (hhi : dt ≤ 2147483647) :
    decode .h (encode (.prep dt)) = .ok (.prep dt) := by
  obtain ⟨hop, hz0, hz1, hdt⟩ := prep_word_fields dt
  have hopcode : opcodeOf (opBits .prep) = some .prep := rfl
  have hfits : (BitVec.ofInt 32 dt).toInt = dt := BitVec.toInt_ofInt_eq_self (by decide) hlo (by omega)
  simp [decode, decodePayload, portOf, hop, hopcode, hz0, hz1, hdt, hfits]

/-! ### CHWR to an existing slot, and the state after a PREP -/

theorem exec_chwr_existing {slot : Nat} {s : State} (hs : slot < nch s.variant) (value : Word) :
    exec (.chwr slot value) s = .next (s.writeSlot slot value) := by
  rw [exec_chwr, if_neg (Nat.not_le.2 hs)]

/-- R72: the state that a PREP answers, prepared from the slots of the state it runs in. -/
def afterPrep (dt : Int) (s : State) : State := prepareFrame (decodeChannels s.variant s.ch) dt s

theorem exec_prep_eq_afterPrep (dt : Int) (s : State) : exec (.prep dt) s = .next (afterPrep dt s) := exec_prep dt s

/-- R21: PREP leaves the Channel Buffer alone. -/
theorem afterPrep_ch (dt : Int) (s : State) : (afterPrep dt s).ch = s.ch := by simp [afterPrep]

/-- R70, R72, R92: PREP stores the decoded colour codes, and with EFFECT_EN = 1 the decoded effect codes. -/
theorem afterPrep_shows (dt : Int) (s : State) :
    ∃ d, d = decodeChannels s.variant s.ch ∧
      (afterPrep dt s).fsR = d.r ∧ (afterPrep dt s).fsG = d.g ∧ (afterPrep dt s).fsB = d.b ∧
      (effectEn s.variant = true → (afterPrep dt s).fsI = d.i ∧ (afterPrep dt s).fsQ = d.q) := by
  refine ⟨_, rfl, ?_⟩
  cases he : effectEn s.variant with
  | false => simp [afterPrep, prepareFrame_noEffect _ dt he]
  | true => simp [afterPrep, prepareFrame_effect _ dt he, effectStep_eq]

/-- PREP reads no move still to come. -/
theorem afterPrep_withInputs (dt : Int) (s : State) (l : List Input) :
    afterPrep dt (s.withInputs l) = (afterPrep dt s).withInputs l := by
  unfold afterPrep
  cases he : effectEn s.variant with
  | false =>
    rw [prepareFrame_noEffect _ dt he, prepareFrame_noEffect _ dt (s := s.withInputs l) he]
    rfl
  | true =>
    rw [prepareFrame_effect _ dt he, prepareFrame_effect _ dt (s := s.withInputs l) he]
    rfl

/-! ### The responses of a run within one frame -/

theorem sameFrame_trans {s t u : State} (h : SameFrame s t) (h' : SameFrame t u) : SameFrame s u := by
  obtain ⟨hR, hG, hB, hI, hQ, hE, hA, hFV, hH, hW⟩ := h
  simpa [SameFrame, hR, hG, hB, hI, hQ, hE, hA, hFV, hH, hW] using h'

theorem sameFrame_symm {s t : State} (h : SameFrame s t) : SameFrame t s := by
  obtain ⟨hR, hG, hB, hI, hQ, hE, hA, hFV, hH, hW⟩ := h
  exact ⟨hR.symm, hG.symm, hB.symm, hI.symm, hQ.symm, hE.symm, hA.symm, hFV.symm, hH.symm, hW.symm⟩

/-- R49: a command appends its response, if it has one, to those before. -/
theorem exec_responses {i : Instr} {s t : State} (h : exec i s = .next t) :
    t.responses = s.responses ++ responseTo i s := by
  rcases exec_next_cases h with ⟨_, _, rfl, -, rfl⟩ | ⟨_, _, rfl, -, rfl⟩ | ⟨_, rfl, rfl⟩ | ⟨_, hi, rfl⟩
  case inl => simp [responseTo]
  case inr.inl => simp [responseTo]
  case inr.inr.inl => simp [responseTo]
  case inr.inr.inr => rcases hi with ⟨_, _, rfl, rfl⟩ | ⟨_, _, _, rfl, rfl⟩ <;> rfl

/-- What port O answers to one move made in state `s` (R49): the response of a colour command, else nothing. -/
def answerTo (s : State) : Input → List Response
  | .command p c =>
    match decode p c with
    | .ok i => responseTo i s
    | .error _ => []
  | .reset _ _ => []

theorem answerTo_legal {p : Port} {c : CmdWord} {i : Instr} (hd : decode p c = .ok i) (s : State) :
    answerTo s (.command p c) = responseTo i s := by
  simp only [answerTo, hd]

theorem answerTo_illegal {p : Port} {c : CmdWord} {why : IllegalReason} (hd : decode p c = .error why) (s : State) :
    answerTo s (.command p c) = [] := by
  simp only [answerTo, hd]

/-- R129: no word on port B is answered. -/
theorem answerTo_portB (s : State) (c : CmdWord) : answerTo s (.command .b c) = [] := by
  cases hd : decode .b c with
  | error why => exact answerTo_illegal hd s
  | ok i =>
    rw [answerTo_legal hd]
    have hp := port_of_decode hd
    cases i with
    | chwr slot value => rfl
    | prep dt => rfl
    | col1 index count => cases hp
    | col2 index x y => cases hp

/-- The answers to a list of moves are the answers to the words on port H. -/
theorem answers_eq_portH (s : State) (l : List Input) :
    l.flatMap (answerTo s) = (offeredOn .h l).flatMap (fun c => answerTo s (.command .h c)) := by
  induction l with
  | nil => rfl
  | cons x l ih =>
    rw [List.flatMap_cons, ih]
    match x with
    | .command .h c => rw [offeredOn_command_same, List.flatMap_cons]
    | .command .b c => rw [answerTo_portB, offeredOn_command_other (by decide), List.nil_append]
    | .reset _ _ => rfl

/-- R111, R112: an answer reads nothing but the Frame State and the straps. -/
theorem answerTo_congr {s s' : State} (hf : SameFrame s s') (hp : SameStraps s s') (x : Input) :
    answerTo s x = answerTo s' x := by
  obtain ⟨hR, hG, hB, -, -, hE, -⟩ := hf
  obtain ⟨hv, hg⟩ := hp
  have hcompose : ∀ band, compose band s = compose band s' := by
    intro band
    simp only [compose, baseColour, hR, hG, hB, hE, hv, hg]
  have hresponse : ∀ i, responseTo i s = responseTo i s' := by
    intro i
    cases i <;> simp only [responseTo, hcompose, hv]
  cases x with
  | command p c => simp only [answerTo, hresponse]
  | reset v g => rfl

/-- R49: a step that takes a word appends the answer to it. -/
theorem step_responses {s t : State} {p : Port} {c : CmdWord} {rest : List Input}
    (hi : s.inputs = .command p c :: rest) (h : step s = .next t) :
    t.responses = s.responses ++ answerTo s (.command p c) := by
  cases hd : decode p c with
  | ok i =>
    rw [step_legal hi hd] at h
    rw [answerTo_legal hd, exec_responses h, State.withInputs_responses]
    exact congrArg (s.responses ++ ·) (by cases i <;> rfl)
  | error why =>
    rw [step_illegal hi hd] at h
    obtain rfl := Host.Outcome.next.inj h
    simp [answerTo_illegal hd]

/-- R39, R115: a run with no PREP and no reset keeps the Frame State, and answers each move as from its first state. -/
theorem frame_run {l : List Input} {s t : State} (hi : s.inputs = l) (hl : ∀ x ∈ l, ¬ IsPrep x ∧ ¬ IsReset x)
    (h : RunsTo l.length s t) : SameFrame s t ∧ t.responses = s.responses ++ l.flatMap (answerTo s) := by
  induction l generalizing s with
  | nil =>
    obtain rfl := runsTo_zero.1 h
    exact ⟨sameFrame_refl t, by simp⟩
  | cons x rest ih =>
    obtain ⟨u, hu, hrun⟩ := runsTo_succ.1 h
    obtain ⟨hx, hrest⟩ := List.forall_mem_cons.1 hl
    obtain ⟨hnoPrep, hnoReset⟩ := hx
    cases x with
    | reset v g => exact absurd trivial hnoReset
    | command p c =>
      have hnext : NoResetNext s := fun v g rest' hr => by simp [hi] at hr
      have hframe : SameFrame s u := by
        rcases step_frame_cases hnext hu with ⟨c', rest', dt, hi', hd, -⟩ | ⟨-, hf⟩
        · obtain ⟨⟨rfl, rfl⟩, -⟩ : (p = .h ∧ c = c') ∧ rest = rest' := by simpa [hi] using hi'
          exact absurd ⟨dt, hd⟩ hnoPrep
        · exact hf
      have hsame : answerTo u = answerTo s :=
        funext fun y => (answerTo_congr hframe (step_keeps_straps hnext hu) y).symm
      obtain ⟨hlast, hresp⟩ := ih (by simp [step_takes_one hu, hi]) hrest hrun
      refine ⟨sameFrame_trans hframe hlast, ?_⟩
      rw [hresp, step_responses hi hu, hsame, List.flatMap_cons, List.append_assoc]

end Sys2Proof.Proofs
end

section
/-! The statements of 20_memory.md. -/

namespace Sys2Proof.Proofs
open Sys2Proof.Machine

/-- Settles O53: both runs keep the Frame State they start with, and their answers are the answers to the words on port H,
which read nothing but that Frame State and the straps. -/
theorem lateChwrDoesNotChangeColours : Obligations.LateChwrDoesNotChangeColours := by
  intro s s' t t' hframe hstraps hresp hwords hmoves hmoves' hrun hrun'
  obtain ⟨hst, hanswers⟩ := frame_run rfl hmoves hrun
  obtain ⟨hst', hanswers'⟩ := frame_run rfl hmoves' hrun'
  have hsame : answerTo s = answerTo s' := funext (answerTo_congr hframe hstraps)
  refine ⟨?_, sameFrame_trans (sameFrame_symm hst) (sameFrame_trans hframe hst')⟩
  calc t.responses
      = s.responses ++ (offeredOn .h s.inputs).flatMap (fun c => answerTo s (.command .h c)) := by
        rw [hanswers, answers_eq_portH]
    _ = s'.responses ++ (offeredOn .h s'.inputs).flatMap (fun c => answerTo s' (.command .h c)) := by
        rw [hresp, hwords, hsame]
    _ = t'.responses := by rw [hanswers', answers_eq_portH]

/-- CHWR, then PREP: the PREP runs from the written buffer. -/
theorem runsTo_chwr_prep {s : State} {slot : Nat} {value : Word} {dt : Int} {rest : List Input}
    (hslot : slot < nch s.variant) (hlo : -2147483648 ≤ dt) (hhi : dt ≤ 2147483647)
    (hi : s.inputs = offer (.chwr slot value) :: offer (.prep dt) :: rest) :
    RunsTo 2 s (afterPrep dt ((s.withInputs rest).writeSlot slot value)) := by
  have hchwr : step s = .next ((s.withInputs (offer (.prep dt) :: rest)).writeSlot slot value) := by
    rw [step_legal hi (decode_chwr_word (slot_fits_field hslot) value)]
    exact exec_chwr_existing (by simpa using hslot) value
  exact runsTo_succ.2 ⟨_, hchwr, runsTo_succ.2 ⟨_, step_legal rfl (decode_prep_word hlo hhi), runsTo_zero.2 rfl⟩⟩

/-- PREP, then CHWR: the PREP runs from the old buffer, and the slot is written after it. -/
theorem runsTo_prep_chwr {s : State} {slot : Nat} {value : Word} {dt : Int} {rest : List Input}
    (hslot : slot < nch s.variant) (hlo : -2147483648 ≤ dt) (hhi : dt ≤ 2147483647)
    (hi : s.inputs = offer (.prep dt) :: offer (.chwr slot value) :: rest) :
    RunsTo 2 s ((afterPrep dt (s.withInputs rest)).writeSlot slot value) := by
  have hprep : step s = .next ((afterPrep dt s).withInputs (offer (.chwr slot value) :: rest)) := by
    rw [step_legal hi (decode_prep_word hlo hhi), exec_prep_eq_afterPrep, afterPrep_withInputs]
  have hchwr : step ((afterPrep dt s).withInputs (offer (.chwr slot value) :: rest)) =
      .next (((afterPrep dt s).withInputs rest).writeSlot slot value) := by
    rw [step_legal rfl (decode_chwr_word (slot_fits_field hslot) value)]
    exact exec_chwr_existing (by simpa [afterPrep] using hslot) value
  rw [afterPrep_withInputs]
  exact runsTo_succ.2 ⟨_, hprep, runsTo_succ.2 ⟨_, hchwr, runsTo_zero.2 rfl⟩⟩

/-- Settles O54: the end state of each order, and what a PREP shows of the buffer it ran from. -/
theorem prepSeesExactlyTheEarlierChwr : Obligations.PrepSeesExactlyTheEarlierChwr := by
  intro s s' slot value dt rest hwf hslot hlo hhi hi hs'
  have hnew : (afterPrep dt ((s.withInputs rest).writeSlot slot value)).ch = s.ch.write slot value := afterPrep_ch ..
  have hold : (afterPrep dt (s.withInputs rest)).ch = s.ch := afterPrep_ch ..
  refine ⟨afterPrep dt ((s.withInputs rest).writeSlot slot value),
    (afterPrep dt (s.withInputs rest)).writeSlot slot value,
    runsTo_chwr_prep hslot hlo hhi hi, ?prepFirst, ?slot, fun a => ?slots, ?seen, ?notSeen, ?fromWritten,
    afterPrep dt (s.withInputs rest), rfl, ?fromOld⟩
  case prepFirst =>
    subst hs'
    exact runsTo_prep_chwr hslot hlo hhi rfl
  case slot => rw [hnew, Memory.read_write_same hwf]
  case slots => rw [hnew, State.writeSlot_ch, hold]
  case seen => rw [hnew]; exact afterPrep_shows dt ((s.withInputs rest).writeSlot slot value)
  case notSeen => exact afterPrep_shows dt (s.withInputs rest)
  case fromWritten => rw [hnew]; rfl
  case fromOld => rw [hnew, State.writeSlot, hold]

/-- Settles O55: the step takes the first move and leaves the rest. -/
theorem stepsKeepPortOrder : Obligations.StepsKeepPortOrder := by
  intro s t p c rest hi h
  have ht : t.inputs = rest := by rw [step_takes_one h, hi, List.tail_cons]
  rw [hi, ht]
  exact ⟨offeredOn_command_same p c rest, fun q hq => (offeredOn_command_other hq c rest).symm⟩

/-- R38: of two ports that offer words, the one whose moves are put first has its first word taken first. -/
theorem port_may_go_first (s : State) {p q : Port} (hpq : p ≠ q) (c : CmdWord) (cs ds : List CmdWord) :
    ∃ l, offeredOn p l = c :: cs ∧ offeredOn q l = ds ∧ l.head? = some (.command p c) ∧
      ∃ t, step { s with inputs := l } = .next t ∧ offeredOn p t.inputs = cs := by
  have words : ∀ cs', offeredOn p (movesOn p cs' ++ movesOn q ds) = cs' := fun cs' => by
    rw [offeredOn_append, offeredOn_movesOn_same, offeredOn_movesOn_other hpq, List.append_nil]
  have others : offeredOn q (movesOn p (c :: cs) ++ movesOn q ds) = ds := by
    rw [offeredOn_append, offeredOn_movesOn_other hpq.symm, offeredOn_movesOn_same, List.nil_append]
  obtain ⟨t, ht, hin⟩ := step_answers_command (s := s.withInputs (movesOn p (c :: cs) ++ movesOn q ds)) rfl
  exact ⟨_, words (c :: cs), others, rfl, t, ht, by rw [hin]; exact words cs⟩

/-- Settles O56: either port's moves may be put first. -/
theorem eitherPortMayGoFirst : Obligations.EitherPortMayGoFirst := by
  intro s h b hs bs
  obtain ⟨l, hh, hb, hhead, t, ht, hrest⟩ := port_may_go_first s (p := .h) (q := .b) (by decide) h hs (b :: bs)
  obtain ⟨l', hb', hh', hhead', t', ht', hrest'⟩ := port_may_go_first s (p := .b) (q := .h) (by decide) b bs (h :: hs)
  exact ⟨l, l', ⟨hh, hb, hhead⟩, ⟨hh', hb', hhead'⟩, t, t', ht, ht', hrest, hrest'⟩

end Sys2Proof.Proofs
end

section
/-! The fields of a command word, the decoder as one rule per outcome, the words of the commands, the layout of slot words
and response words, and the step that takes any move. -/

namespace Sys2Proof.Proofs
open Sys2Proof.Machine

/-! ### The fields of a word as R7 reads them -/

/-- A bit slice and R7's `C[hi:lo]` read the same number. -/
theorem extractLsb'_toNat_eq_fieldOf (c : CmdWord) (lo : Nat) {len : Nat} (hlen : 0 < len) :
    (c.extractLsb' lo len).toNat = fieldOf c (lo + len - 1) lo := by
  have hwidth : lo + len - 1 + 1 - lo = len := by omega
  rw [BitVec.extractLsb'_toNat, Nat.shiftRight_eq_div_pow, fieldOf, hwidth]

theorem extractLsb'_eq_iff_fieldOf (c : CmdWord) (lo : Nat) {len : Nat} (hlen : 0 < len) (x : BitVec len) :
    c.extractLsb' lo len = x ↔ fieldOf c (lo + len - 1) lo = x.toNat := by
  rw [BitVec.toNat_eq, extractLsb'_toNat_eq_fieldOf c lo hlen]

/-- R7: the two's complement reading of a field. -/
theorem toInt_eq_sext {w : Nat} (hw : 0 < w) (x : BitVec w) : x.toInt = sext w x.toNat := by
  have hhalf : 2 ^ w = 2 * 2 ^ (w - 1) := by rw [← Nat.pow_succ', Nat.succ_eq_add_one, Nat.sub_add_cancel hw]
  have hsign : 2 * x.toNat < 2 ^ w ↔ x.toNat < 2 ^ (w - 1) := by omega
  rw [BitVec.toInt_eq_toNat_cond]
  simp only [hsign, sext, Nat.cast_pow, Nat.cast_ofNat]

/-- R54: the two's complement reading of a slice, as `sext` of R7's field. -/
theorem extractLsb'_toInt_eq_sext (c : CmdWord) (lo : Nat) {len : Nat} (hlen : 0 < len) :
    (c.extractLsb' lo len).toInt = sext len (fieldOf c (lo + len - 1) lo) := by
  rw [toInt_eq_sext hlen, extractLsb'_toNat_eq_fieldOf c lo hlen]

/-- A mask that keeps the whole of a field lets the field of the match be read off. -/
theorem field_of_masked {c mask m : CmdWord} (h : c &&& mask = m) (lo len : Nat)
    (hkept : mask.extractLsb' lo len = BitVec.allOnes len) : c.extractLsb' lo len = m.extractLsb' lo len := by
  rw [← h, BitVec.extractLsb'_and, hkept, BitVec.and_allOnes]

/-! ### The decoder, one rule per outcome -/

theorem opcodeOf_opBits (op : Opcode) : opcodeOf (opBits op) = some op := by cases op <;> rfl

theorem opBits_of_opcodeOf {b : BitVec 4} {op : Opcode} (h : opcodeOf b = some op) : b = opBits op := by
  revert b
  cases op <;> decide

/-- R50 to R53: the must-be-zero fields Z0 and Z1 of the format of an opcode are zero. -/
def ZerosOk : Opcode → CmdWord → Prop
  | .chwr, c => z0Field c = 0#12 ∧ c.extractLsb' 35 13 = 0#13
  | .prep, c => z0Field c = 0#12 ∧ c.extractLsb' 32 16 = 0#16
  | .col1, c => z0Field c = 0#12 ∧ c.extractLsb' 0 16 = 0#16
  | .col2, c => z0Field c = 0#12

/-- R54: the command whose operands stand in the operand fields of an opcode's format. -/
def operandsOf : Opcode → CmdWord → Instr
  | .chwr, c => .chwr (c.extractLsb' 32 3).toNat (c.extractLsb' 0 32)
  | .prep, c => .prep (c.extractLsb' 0 32).toInt
  | .col1, c => .col1 (c.extractLsb' 32 16).toNat (c.extractLsb' 16 16).toNat
  | .col2, c => .col2 (c.extractLsb' 32 16).toNat (c.extractLsb' 16 16).toInt (c.extractLsb' 0 16).toInt

@[simp] theorem operandsOf_opcode (op : Opcode) (c : CmdWord) : (operandsOf op c).opcode = op := by cases op <;> rfl

theorem zerosOk_z0 {op : Opcode} {c : CmdWord} (h : ZerosOk op c) : z0Field c = 0#12 := by
  cases op with
  | col2 => exact h
  | _ => exact h.1

/-- R55 (1). -/
theorem decode_reserved {c : CmdWord} (h : opcodeOf (opField c) = none) (p : Port) :
    decode p c = .error .reservedOpcode := by
  simp only [decode, h]

section
variable {op : Opcode} {c : CmdWord} (hop : opField c = opBits op)
include hop

/-- R55 (2). -/
theorem decode_wrongPort {p : Port} (hp : p ≠ portOf op) : decode p c = .error .wrongPort := by
  simp only [decode, hop, opcodeOf_opBits, if_pos hp]

/-- R55 (3). -/
theorem decode_nonzero (hz : ¬ ZerosOk op c) : decode (portOf op) c = .error .nonzeroMustBeZero := by
  simp only [decode, hop, opcodeOf_opBits, ne_eq, not_true_eq_false, if_false]
  split
  · rfl
  · rename_i hz0
    have hz0 := not_not.1 hz0
    cases op with
    | col2 => exact absurd hz0 hz
    | _ => exact if_pos fun hz1 => hz ⟨hz0, hz1⟩

/-- R56: a word with a known opcode, on its port, with zero must-be-zero fields, is legal. -/
theorem decode_legal (hz : ZerosOk op c) : decode (portOf op) c = .ok (operandsOf op c) := by
  simp only [decode, hop, opcodeOf_opBits, ne_eq, not_true_eq_false, if_false, zerosOk_z0 hz]
  cases op with
  | col2 => rfl
  | _ => exact if_neg (not_not.2 hz.2)

end

/-- R56: exactly when a word on a port decodes to a given command. -/
theorem decode_eq_ok_iff {p : Port} {c : CmdWord} {i : Instr} :
    decode p c = .ok i ↔
      opField c = opBits i.opcode ∧ p = portOf i.opcode ∧ ZerosOk i.opcode c ∧ i = operandsOf i.opcode c := by
  constructor
  · intro h
    cases hc : opcodeOf (opField c) with
    | none => simp [decode_reserved hc] at h
    | some op =>
      have hop := opBits_of_opcodeOf hc
      by_cases hp : p = portOf op
      · by_cases hz : ZerosOk op c
        · obtain rfl : operandsOf op c = i := by simpa [hp, decode_legal hop hz] using h
          simp [hop, hp, hz]
        · simp [hp, decode_nonzero hop hz] at h
      · simp [decode_wrongPort hop hp] at h
  · rintro ⟨hop, rfl, hz, hi⟩
    exact (decode_legal hop hz).trans (congrArg Except.ok hi.symm)


/-! ### The words of COL1 and COL2, beside those of CHWR and PREP -/

/-- R52: the fields of the word of a COL1. -/
theorem col1_word_fields (index count : Nat) :
    opField (encode (.col1 index count)) = opBits .col1 ∧ z0Field (encode (.col1 index count)) = 0#12 ∧
    (encode (.col1 index count)).extractLsb' 32 16 = BitVec.ofNat 16 index ∧
    (encode (.col1 index count)).extractLsb' 16 16 = BitVec.ofNat 16 count ∧
    (encode (.col1 index count)).extractLsb' 0 16 = 0#16 := by
  have aboveZ1 : ∀ k len, (encode (.col1 index count)).extractLsb' (k + 16) len =
      (opBits .col1 ++ 0#12 ++ BitVec.ofNat 16 index ++ BitVec.ofNat 16 count).extractLsb' k len :=
    extractLsb'_append_above _ 0#16
  have aboveCount : ∀ k len, (encode (.col1 index count)).extractLsb' (k + 32) len =
      (opBits .col1 ++ 0#12 ++ BitVec.ofNat 16 index).extractLsb' k len :=
    fun k len => (aboveZ1 (k + 16) len).trans (extractLsb'_append_above _ (BitVec.ofNat 16 count) k len)
  have aboveIndex : ∀ k len, (encode (.col1 index count)).extractLsb' (k + 48) len =
      (opBits .col1 ++ 0#12).extractLsb' k len :=
    fun k len => (aboveCount (k + 16) len).trans (extractLsb'_append_above _ (BitVec.ofNat 16 index) k len)
  exact ⟨aboveIndex 12 4, aboveIndex 0 12, (aboveCount 0 16).trans BitVec.extractLsb'_append_eq_right,
    (aboveZ1 0 16).trans BitVec.extractLsb'_append_eq_right, BitVec.extractLsb'_append_eq_right⟩

/-- R53: the fields of the word of a COL2. -/
theorem col2_word_fields (index : Nat) (x y : Int) :
    opField (encode (.col2 index x y)) = opBits .col2 ∧ z0Field (encode (.col2 index x y)) = 0#12 ∧
    (encode (.col2 index x y)).extractLsb' 32 16 = BitVec.ofNat 16 index ∧
    (encode (.col2 index x y)).extractLsb' 16 16 = BitVec.ofInt 16 x ∧
    (encode (.col2 index x y)).extractLsb' 0 16 = BitVec.ofInt 16 y := by
  have aboveY : ∀ k len, (encode (.col2 index x y)).extractLsb' (k + 16) len =
      (opBits .col2 ++ 0#12 ++ BitVec.ofNat 16 index ++ BitVec.ofInt 16 x).extractLsb' k len :=
    extractLsb'_append_above _ (BitVec.ofInt 16 y)
  have aboveX : ∀ k len, (encode (.col2 index x y)).extractLsb' (k + 32) len =
      (opBits .col2 ++ 0#12 ++ BitVec.ofNat 16 index).extractLsb' k len :=
    fun k len => (aboveY (k + 16) len).trans (extractLsb'_append_above _ (BitVec.ofInt 16 x) k len)
  have aboveIndex : ∀ k len, (encode (.col2 index x y)).extractLsb' (k + 48) len =
      (opBits .col2 ++ 0#12).extractLsb' k len :=
    fun k len => (aboveX (k + 16) len).trans (extractLsb'_append_above _ (BitVec.ofNat 16 index) k len)
  exact ⟨aboveIndex 12 4, aboveIndex 0 12, (aboveX 0 16).trans BitVec.extractLsb'_append_eq_right,
    (aboveY 0 16).trans BitVec.extractLsb'_append_eq_right, BitVec.extractLsb'_append_eq_right⟩

/-! ### Operands and their fields -/

/-- An operand in the range of its unsigned field is read back from it. -/
theorem toNat_ofNat_of_fits {w n : Nat} (h : fitsUnsigned w n = true) : (BitVec.ofNat w n).toNat = n := by
  rw [BitVec.toNat_ofNat, Nat.mod_eq_of_lt (by simpa [fitsUnsigned] using h)]

/-- An operand in the range of its signed field is read back from it. -/
theorem toInt_ofInt_of_fits {w : Nat} (hw : 0 < w) {n : Int} (h : fitsSigned w n = true) :
    (BitVec.ofInt w n).toInt = n := by
  obtain ⟨hlo, hhi⟩ : -(2 ^ (w - 1) : Int) ≤ n ∧ n < 2 ^ (w - 1) := by simpa [fitsSigned] using h
  exact BitVec.toInt_ofInt_eq_self hw hlo hhi

theorem fitsUnsigned_toNat {w : Nat} (x : BitVec w) : fitsUnsigned w x.toNat = true := by
  simp [fitsUnsigned, x.isLt]

theorem fitsSigned_toInt {w : Nat} (x : BitVec w) : fitsSigned w x.toInt = true := by
  simp [fitsSigned, x.le_toInt, x.toInt_lt]

/-- R54: what stands in the operand fields of a word is in range. -/
theorem operandsOf_wellFormed (op : Opcode) (c : CmdWord) : WellFormed (operandsOf op c) := by
  cases op <;>
    simp only [WellFormed, wellFormed, operandsOf, fitsUnsigned_toNat, fitsSigned_toInt, Bool.and_self]

/-- R54: the word of a well-formed command holds its operands. -/
theorem operandsOf_encode {i : Instr} (h : WellFormed i) : operandsOf i.opcode (encode i) = i := by
  cases i with
  | chwr slot value =>
    obtain ⟨-, -, -, hslot, hvalue⟩ := chwr_word_fields slot value
    simp only [Instr.opcode, operandsOf, hslot, hvalue, toNat_ofNat_of_fits h]
  | prep dt =>
    obtain ⟨-, -, -, hdt⟩ := prep_word_fields dt
    simp only [Instr.opcode, operandsOf, hdt, toInt_ofInt_of_fits (by decide) h]
  | col1 index count =>
    obtain ⟨-, -, hindex, hcount, -⟩ := col1_word_fields index count
    obtain ⟨hi, hc⟩ := Bool.and_eq_true_iff.1 h
    simp only [Instr.opcode, operandsOf, hindex, hcount, toNat_ofNat_of_fits hi, toNat_ofNat_of_fits hc]
  | col2 index x y =>
    obtain ⟨-, -, hindex, hx, hy⟩ := col2_word_fields index x y
    obtain ⟨⟨fi, fx⟩, fy⟩ : (fitsUnsigned 16 index = true ∧ fitsSigned 16 x = true) ∧ fitsSigned 16 y = true := by
      simpa [WellFormed, wellFormed] using h
    simp only [Instr.opcode, operandsOf, hindex, hx, hy, toNat_ofNat_of_fits fi, toInt_ofInt_of_fits (by decide) fx,
      toInt_ofInt_of_fits (by decide) fy]

theorem opField_encode (i : Instr) : opField (encode i) = opBits i.opcode := by
  cases i with
  | chwr slot value => exact (chwr_word_fields slot value).1
  | prep dt => exact (prep_word_fields dt).1
  | col1 index count => exact (col1_word_fields index count).1
  | col2 index x y => exact (col2_word_fields index x y).1

/-- R50 to R53: must-be-zero fields are written 0. -/
theorem zerosOk_encode (i : Instr) : ZerosOk i.opcode (encode i) := by
  cases i with
  | chwr slot value =>
    obtain ⟨-, hz0, hz1, -⟩ := chwr_word_fields slot value
    exact ⟨hz0, hz1⟩
  | prep dt =>
    obtain ⟨-, hz0, hz1, -⟩ := prep_word_fields dt
    exact ⟨hz0, hz1⟩
  | col1 index count =>
    obtain ⟨-, hz0, -, -, hz1⟩ := col1_word_fields index count
    exact ⟨hz0, hz1⟩
  | col2 index x y =>
    obtain ⟨-, hz0, -⟩ := col2_word_fields index x y
    exact hz0

/-! ### A word is the concatenation of its fields -/

/-- The part of a word at and above a field, from the part above it and the field. -/
theorem upper_append_field (c : CmdWord) (lo len rest : Nat) :
    c.extractLsb' (lo + len) rest ++ c.extractLsb' lo len = c.extractLsb' lo (rest + len) :=
  BitVec.extractLsb'_append_extractLsb'_eq_extractLsb' rfl

/-- R54, R56: a word with the opcode's OP and zero must-be-zero fields is the word of the command that its operand fields
hold: no bit of it is left over. -/
theorem encode_operandsOf {op : Opcode} {c : CmdWord} (hop : opField c = opBits op) (hz : ZerosOk op c) :
    encode (operandsOf op c) = c := by
  have hhead : opBits op ++ 0#12 = c.extractLsb' 48 16 := by
    rw [← hop, ← zerosOk_z0 hz]
    exact upper_append_field c 48 12 4
  have hindex : c.extractLsb' 48 16 ++ c.extractLsb' 32 16 = c.extractLsb' 32 32 := upper_append_field c 32 16 16
  have hmiddle : c.extractLsb' 32 32 ++ c.extractLsb' 16 16 = c.extractLsb' 16 48 := upper_append_field c 16 16 32
  have hlow : c.extractLsb' 16 48 ++ c.extractLsb' 0 16 = c :=
    (upper_append_field c 0 16 48).trans BitVec.extractLsb'_eq_self
  have hword : c.extractLsb' 32 32 ++ c.extractLsb' 0 32 = c :=
    (upper_append_field c 0 32 32).trans BitVec.extractLsb'_eq_self
  cases op with
  | chwr =>
    have hz1 : c.extractLsb' 48 16 ++ c.extractLsb' 35 13 = c.extractLsb' 35 29 := upper_append_field c 35 13 16
    have hslot : c.extractLsb' 35 29 ++ c.extractLsb' 32 3 = c.extractLsb' 32 32 := upper_append_field c 32 3 29
    simp only [operandsOf, encode, hhead, ← hz.2, hz1, BitVec.ofNat_toNat, BitVec.setWidth_eq, hslot, hword]
  | prep =>
    simp only [operandsOf, encode, hhead, ← hz.2, hindex, BitVec.ofInt_toInt, hword]
  | col1 =>
    simp only [operandsOf, encode, hhead, ← hz.2, BitVec.ofNat_toNat, BitVec.setWidth_eq, hindex, hmiddle, hlow]
  | col2 =>
    simp only [operandsOf, encode, hhead, BitVec.ofNat_toNat, BitVec.setWidth_eq, BitVec.ofInt_toInt, hindex, hmiddle,
      hlow]

/-! ### Must-be-zero fields and operands as R7 reads them -/

/-- R48: the OP field. -/
theorem opField_eq_iff (op : Opcode) (c : CmdWord) : opField c = opBits op ↔ fieldOf c 63 60 = (opBits op).toNat :=
  extractLsb'_eq_iff_fieldOf c 60 (by decide) (opBits op)

theorem z0Field_eq_zero_iff (c : CmdWord) : z0Field c = 0#12 ↔ fieldOf c 59 48 = 0 :=
  extractLsb'_eq_iff_fieldOf c 48 (by decide) 0#12

/-- R50. -/
theorem zerosOk_chwr_iff (c : CmdWord) : ZerosOk .chwr c ↔ fieldOf c 59 48 = 0 ∧ fieldOf c 47 35 = 0 :=
  and_congr (z0Field_eq_zero_iff c) (extractLsb'_eq_iff_fieldOf c 35 (by decide) 0#13)

/-- R51. -/
theorem zerosOk_prep_iff (c : CmdWord) : ZerosOk .prep c ↔ fieldOf c 59 48 = 0 ∧ fieldOf c 47 32 = 0 :=
  and_congr (z0Field_eq_zero_iff c) (extractLsb'_eq_iff_fieldOf c 32 (by decide) 0#16)

/-- R52. -/
theorem zerosOk_col1_iff (c : CmdWord) : ZerosOk .col1 c ↔ fieldOf c 59 48 = 0 ∧ fieldOf c 15 0 = 0 :=
  and_congr (z0Field_eq_zero_iff c) (extractLsb'_eq_iff_fieldOf c 0 (by decide) 0#16)

/-- R53. -/
theorem zerosOk_col2_iff (c : CmdWord) : ZerosOk .col2 c ↔ fieldOf c 59 48 = 0 := z0Field_eq_zero_iff c

theorem slot_eq_fieldOf (c : CmdWord) : (c.extractLsb' 32 3).toNat = fieldOf c 34 32 :=
  extractLsb'_toNat_eq_fieldOf c 32 (by decide)

theorem index_eq_fieldOf (c : CmdWord) : (c.extractLsb' 32 16).toNat = fieldOf c 47 32 :=
  extractLsb'_toNat_eq_fieldOf c 32 (by decide)

/-- R54: SLOT is unsigned, VALUE is the field's 32 bits. -/
theorem eq_operandsOf_chwr_iff (slot : Nat) (value : Word) (c : CmdWord) :
    .chwr slot value = operandsOf .chwr c ↔ slot = fieldOf c 34 32 ∧ value.toNat = fieldOf c 31 0 := by
  have hvalue : (c.extractLsb' 0 32).toNat = fieldOf c 31 0 := extractLsb'_toNat_eq_fieldOf c 0 (by decide)
  rw [operandsOf, Instr.chwr.injEq, BitVec.toNat_eq, slot_eq_fieldOf, hvalue]

/-- R54: DT is signed. -/
theorem eq_operandsOf_prep_iff (dt : Int) (c : CmdWord) :
    .prep dt = operandsOf .prep c ↔ dt = sext 32 (fieldOf c 31 0) := by
  have hdt : (c.extractLsb' 0 32).toInt = sext 32 (fieldOf c 31 0) := extractLsb'_toInt_eq_sext c 0 (by decide)
  rw [operandsOf, Instr.prep.injEq, hdt]

/-- R54: INDEX and COUNT are unsigned. -/
theorem eq_operandsOf_col1_iff (index count : Nat) (c : CmdWord) :
    .col1 index count = operandsOf .col1 c ↔ index = fieldOf c 47 32 ∧ count = fieldOf c 31 16 := by
  have hcount : (c.extractLsb' 16 16).toNat = fieldOf c 31 16 := extractLsb'_toNat_eq_fieldOf c 16 (by decide)
  rw [operandsOf, Instr.col1.injEq, index_eq_fieldOf, hcount]

/-- R54: INDEX is unsigned, X and Y are signed. -/
theorem eq_operandsOf_col2_iff (index : Nat) (x y : Int) (c : CmdWord) :
    .col2 index x y = operandsOf .col2 c ↔
      index = fieldOf c 47 32 ∧ x = sext 16 (fieldOf c 31 16) ∧ y = sext 16 (fieldOf c 15 0) := by
  have hx : (c.extractLsb' 16 16).toInt = sext 16 (fieldOf c 31 16) := extractLsb'_toInt_eq_sext c 16 (by decide)
  have hy : (c.extractLsb' 0 16).toInt = sext 16 (fieldOf c 15 0) := extractLsb'_toInt_eq_sext c 0 (by decide)
  rw [operandsOf, Instr.col2.injEq, index_eq_fieldOf, hx, hy]

/-- R56: when a word decodes to a given command, with its must-be-zero fields and its operands read as R7 does. -/
theorem decode_eq_ok_iff_fields {p : Port} {c : CmdWord} {i : Instr} {zeros operands : Prop}
    (hz : ZerosOk i.opcode c ↔ zeros) (ho : i = operandsOf i.opcode c ↔ operands) :
    decode p c = .ok i ↔ fieldOf c 63 60 = (opBits i.opcode).toNat ∧ p = portOf i.opcode ∧ zeros ∧ operands := by
  rw [decode_eq_ok_iff, opField_eq_iff, hz, ho]

/-! ### The reasons of R55, by the opcode of the word -/

/-- R55 (1): the reserved values of OP are those that no opcode has. -/
theorem reservedOp_iff (c : CmdWord) : ReservedOp c ↔ opcodeOf (opField c) = none := by
  constructor
  · rintro ⟨hchwr, hprep, hcol1, hcol2⟩
    cases hc : opcodeOf (opField c) with
    | none => rfl
    | some op =>
      have hop := (opField_eq_iff op c).1 (opBits_of_opcodeOf hc)
      cases op with
      | chwr => exact absurd hop hchwr
      | prep => exact absurd hop hprep
      | col1 => exact absurd hop hcol1
      | col2 => exact absurd hop hcol2
  · intro hnone
    have hne : ∀ op, fieldOf c 63 60 ≠ (opBits op).toNat := by
      intro op hop
      rw [(opField_eq_iff op c).2 hop, opcodeOf_opBits] at hnone
      cases hnone
    exact ⟨hne .chwr, hne .prep, hne .col1, hne .col2⟩

/-- R48: a word whose OP is not reserved has an opcode. -/
theorem exists_opcode {c : CmdWord} (h : ¬ ReservedOp c) : ∃ op, opField c = opBits op := by
  rw [reservedOp_iff] at h
  obtain ⟨op, hop⟩ := Option.ne_none_iff_exists'.1 h
  exact ⟨op, opBits_of_opcodeOf hop⟩

/-- R55 (2), for a word of a known opcode. -/
theorem onWrongPort_iff {op : Opcode} {c : CmdWord} (hop : opField c = opBits op) (p : Port) :
    OnWrongPort p c ↔ p ≠ portOf op := by
  rw [opField_eq_iff] at hop
  cases op <;> cases p <;> simp [OnWrongPort, hop, opBits, portOf]

/-- R55 (3), for a word of a known opcode. -/
theorem mustBeZeroBroken_iff {op : Opcode} {c : CmdWord} (hop : opField c = opBits op) :
    MustBeZeroBroken c ↔ ¬ ZerosOk op c := by
  rw [opField_eq_iff] at hop
  cases op with
  | chwr => simp [MustBeZeroBroken, hop, opBits, zerosOk_chwr_iff, Classical.or_iff_not_imp_left]
  | prep => simp [MustBeZeroBroken, hop, opBits, zerosOk_prep_iff, Classical.or_iff_not_imp_left]
  | col1 => simp [MustBeZeroBroken, hop, opBits, zerosOk_col1_iff, Classical.or_iff_not_imp_left]
  | col2 => simp [MustBeZeroBroken, hop, opBits, zerosOk_col2_iff]

/-- R55 (1). -/
theorem decode_of_reservedOp {c : CmdWord} (h : ReservedOp c) (p : Port) : decode p c = .error .reservedOpcode :=
  decode_reserved ((reservedOp_iff c).1 h) p

/-- R55 (2), tested after (1). -/
theorem decode_of_onWrongPort {p : Port} {c : CmdWord} (hr : ¬ ReservedOp c) (hw : OnWrongPort p c) :
    decode p c = .error .wrongPort := by
  obtain ⟨op, hop⟩ := exists_opcode hr
  exact decode_wrongPort hop ((onWrongPort_iff hop p).1 hw)

/-- A word with neither of the first two reasons is on the port of its opcode. -/
theorem exists_opcode_on_port {p : Port} {c : CmdWord} (hr : ¬ ReservedOp c) (hw : ¬ OnWrongPort p c) :
    ∃ op, opField c = opBits op ∧ p = portOf op := by
  obtain ⟨op, hop⟩ := exists_opcode hr
  exact ⟨op, hop, not_not.1 (mt (onWrongPort_iff hop p).2 hw)⟩

/-- R55 (3), tested after (1) and (2). -/
theorem decode_of_mustBeZeroBroken {p : Port} {c : CmdWord} (hr : ¬ ReservedOp c) (hw : ¬ OnWrongPort p c)
    (hz : MustBeZeroBroken c) : decode p c = .error .nonzeroMustBeZero := by
  obtain ⟨op, hop, rfl⟩ := exists_opcode_on_port hr hw
  exact decode_nonzero hop ((mustBeZeroBroken_iff hop).1 hz)

/-- R55: a word with none of the three reasons is legal. -/
theorem decode_of_no_reason {p : Port} {c : CmdWord} (hr : ¬ ReservedOp c) (hw : ¬ OnWrongPort p c)
    (hz : ¬ MustBeZeroBroken c) : ∃ i, decode p c = .ok i := by
  obtain ⟨op, hop, rfl⟩ := exists_opcode_on_port hr hw
  exact ⟨_, decode_legal hop (not_not.1 (mt (mustBeZeroBroken_iff hop).2 hz))⟩

/-- R55: a word with one of the three reasons is illegal. -/
theorem decode_of_reason {p : Port} {c : CmdWord} (h : ReservedOp c ∨ OnWrongPort p c ∨ MustBeZeroBroken c) :
    ∃ why, decode p c = .error why := by
  by_cases hr : ReservedOp c
  · exact ⟨_, decode_of_reservedOp hr p⟩
  · by_cases hw : OnWrongPort p c
    · exact ⟨_, decode_of_onWrongPort hr hw⟩
    · have hz : MustBeZeroBroken c := (h.resolve_left hr).resolve_left hw
      exact ⟨_, decode_of_mustBeZeroBroken hr hw hz⟩

/-- R50, R55: a word with the OP of CHWR and no reason to be illegal is the CHWR of its slot field. -/
theorem decode_of_chwr_op {p : Port} {c : CmdWord} (hop : fieldOf c 63 60 = 1) (hw : ¬ OnWrongPort p c)
    (hz : ¬ MustBeZeroBroken c) : ∃ value, decode p c = .ok (.chwr (fieldOf c 34 32) value) := by
  have hop : opField c = opBits .chwr := (opField_eq_iff .chwr c).2 hop
  obtain rfl : p = .b := not_not.1 (mt (onWrongPort_iff hop p).2 hw)
  have hlegal := decode_legal hop (not_not.1 (mt (mustBeZeroBroken_iff hop).2 hz))
  exact ⟨c.extractLsb' 0 32, by rw [← slot_eq_fieldOf]; exact hlegal⟩

/-! ### The two round trips and the mask and match form -/

/-- R54, R56: the word of a well-formed command decodes to it on its own port. -/
theorem decode_encode {i : Instr} (h : WellFormed i) : decode (portOf i.opcode) (encode i) = .ok i :=
  decode_eq_ok_iff.2 ⟨opField_encode i, rfl, zerosOk_encode i, (operandsOf_encode h).symm⟩

/-- R56: the word of a legal command is determined by the command. -/
theorem encode_of_decode {p : Port} {c : CmdWord} {i : Instr} (h : decode p c = .ok i) : encode i = c := by
  obtain ⟨hop, -, hz, hi⟩ := decode_eq_ok_iff.1 h
  rw [hi]
  exact encode_operandsOf hop hz

/-- R54: what a word decodes to is in range. -/
theorem wellFormed_of_decode {p : Port} {c : CmdWord} {i : Instr} (h : decode p c = .ok i) : WellFormed i := by
  obtain ⟨-, -, -, hi⟩ := decode_eq_ok_iff.1 h
  rw [hi]
  exact operandsOf_wellFormed _ c

/-- R56: every command's word meets the mask and match of its row. -/
theorem encode_meets_mask (i : Instr) : encode i &&& tableMask i.opcode = tableMatch i.opcode := by
  cases i with
  | chwr slot value => exact Laws.EncodingHasTableMatch.chwr slot value
  | prep dt => exact Laws.EncodingHasTableMatch.prep dt
  | col1 index count => exact Laws.EncodingHasTableMatch.col1 index count
  | col2 index x y => exact Laws.EncodingHasTableMatch.col2 index x y

theorem mask_of_decode {p : Port} {c : CmdWord} {i : Instr} (h : decode p c = .ok i) :
    c &&& tableMask i.opcode = tableMatch i.opcode ∧ p = portOf i.opcode := by
  refine ⟨?_, port_of_decode h⟩
  rw [← encode_of_decode h]
  exact encode_meets_mask i

/-- R56: a word that meets the mask and match of a row is, on the row's port, a command of that row. -/
theorem decode_of_mask {op : Opcode} {c : CmdWord} (h : c &&& tableMask op = tableMatch op) :
    decode (portOf op) c = .ok (operandsOf op c) := by
  have hop : opField c = opBits op := by
    cases op <;> exact field_of_masked h 60 4 rfl
  have hz0 : z0Field c = 0#12 := by
    cases op <;> exact field_of_masked h 48 12 rfl
  refine decode_legal hop ?_
  cases op with
  | chwr => exact ⟨hz0, field_of_masked h 35 13 rfl⟩
  | prep => exact ⟨hz0, field_of_masked h 32 16 rfl⟩
  | col1 => exact ⟨hz0, field_of_masked h 0 16 rfl⟩
  | col2 => exact hz0

/-! ### The error flags, the response word, and the responses of a command -/

/-- R121, R122: each flag stands at its cause code. -/
theorem errorFlags_bits (s : State) :
    (errorFlags s).getLsbD 0 = s.errIll ∧ (errorFlags s).getLsbD 1 = s.errSlot := by
  rw [errorFlags, BitVec.getLsbD_append, BitVec.getLsbD_append]
  simp

/-- R49: the fields of a response word. -/
theorem responseWord_fields (band : Bool) (c : Rgb) :
    (responseWord band c).getLsbD 24 = band ∧ (responseWord band c).extractLsb' 16 8 = c.r ∧
    (responseWord band c).extractLsb' 8 8 = c.g ∧ (responseWord band c).extractLsb' 0 8 = c.b := by
  have aboveBlue : ∀ k len, (responseWord band c).extractLsb' (k + 8) len =
      (BitVec.ofBool band ++ c.r ++ c.g).extractLsb' k len :=
    extractLsb'_append_above _ c.b
  have aboveGreen : ∀ k len, (responseWord band c).extractLsb' (k + 16) len =
      (BitVec.ofBool band ++ c.r).extractLsb' k len :=
    fun k len => (aboveBlue (k + 8) len).trans (extractLsb'_append_above _ c.g k len)
  have hband : (responseWord band c).getLsbD 24 = band := by
    rw [responseWord, BitVec.getLsbD_append, BitVec.getLsbD_append, BitVec.getLsbD_append]
    simp
  exact ⟨hband, (aboveGreen 0 8).trans BitVec.extractLsb'_append_eq_right,
    (aboveBlue 0 8).trans BitVec.extractLsb'_append_eq_right, BitVec.extractLsb'_append_eq_right⟩

/-- R49: a colour command has one response, every other command none. -/
theorem responseTo_length (i : Instr) (s : State) :
    (responseTo i s).length = if i.opcode = .col1 ∨ i.opcode = .col2 then 1 else 0 := by
  cases i <;> rfl

/-! ### Slot words of the pseudo-commands -/

/-- R31, R66: an 8-bit channel value in a slot word. -/
theorem dec8_channel_word {n : Nat} (hn : n ≤ 255) :
    (BitVec.ofNat 32 (n * 65536)).toNat = n * 65536 ∧ (dec8 (BitVec.ofNat 32 (n * 65536))).toNat = n := by
  have hword : (BitVec.ofNat 32 (n * 65536)).toNat = n * 65536 := by
    rw [BitVec.toNat_ofNat, Nat.mod_eq_of_lt (by omega)]
  have hint : (BitVec.ofNat 32 (n * 65536)).toInt = n * 65536 := by
    rw [BitVec.toInt_eq_toNat_of_lt (by omega), hword]
    simp
  have hdec := dec8_toNat (BitVec.ofNat 32 (n * 65536))
  rw [hint, Int.mul_ediv_cancel _ (by decide), clampInt, if_neg (by omega), if_neg (by omega)] at hdec
  exact ⟨hword, Int.ofNat.inj hdec⟩

/-- The number that a concatenation stands for. -/
theorem toNat_append_eq_add {n m : Nat} (x : BitVec n) (y : BitVec m) :
    (x ++ y).toNat = x.toNat * 2 ^ m + y.toNat := by
  rw [BitVec.toNat_append, ← Nat.shiftLeft_add_eq_or_of_lt y.isLt, Nat.shiftLeft_eq]

/-- R59: a byte shifted within a slot word loses no bit. -/
theorem shifted_byte_toNat (x : Code8) {k : Nat} (hk : k ≤ 24) :
    (BitVec.ofNat 32 x.toNat <<< k).toNat = x.toNat <<< k := by
  have hfits : x.toNat * 2 ^ k < 2 ^ 32 :=
    calc x.toNat * 2 ^ k < 2 ^ 8 * 2 ^ k := Nat.mul_lt_mul_of_pos_right x.isLt (Nat.two_pow_pos k)
      _ = 2 ^ (8 + k) := (Nat.pow_add 2 8 k).symm
      _ ≤ 2 ^ 32 := Nat.pow_le_pow_right (by decide) (by omega)
  have hbyte : x.toNat % 2 ^ 32 = x.toNat := by omega
  rw [BitVec.toNat_shiftLeft, BitVec.toNat_ofNat, hbyte, Nat.shiftLeft_eq, Nat.mod_eq_of_lt hfits]

/-- R32, R59: the word that CHPACK shifts together is the concatenation of its bytes. -/
theorem packed_word_eq_append (h l f : Code8) :
    BitVec.ofNat 32 h.toNat <<< 24 ||| BitVec.ofNat 32 l.toNat <<< 16 ||| BitVec.ofNat 32 f.toNat <<< 8 =
      h ++ l ++ f ++ 0#8 := by
  apply BitVec.eq_of_toNat_eq
  rw [BitVec.toNat_or, BitVec.toNat_or, shifted_byte_toNat h (by decide), shifted_byte_toNat l (by decide),
    shifted_byte_toNat f (by decide)]
  simp only [BitVec.toNat_append, Nat.shiftLeft_or_distrib, ← Nat.shiftLeft_add, BitVec.toNat_ofNat, Nat.zero_mod,
    Nat.or_zero]

/-- R68, R69: the three bytes of a packed word. -/
theorem packed_word_bytes (h l f : Code8) :
    hiByte (h ++ l ++ f ++ 0#8) = h ∧ loByte (h ++ l ++ f ++ 0#8) = l ∧ frByte (h ++ l ++ f ++ 0#8) = f := by
  have hhi : (h ++ l ++ f ++ 0#8).extractLsb' 24 8 = (h ++ l).extractLsb' 8 8 :=
    (extractLsb'_append_above (h ++ l ++ f) 0#8 16 8).trans (extractLsb'_append_above (h ++ l) f 8 8)
  have hlo : (h ++ l ++ f ++ 0#8).extractLsb' 16 8 = (h ++ l).extractLsb' 0 8 :=
    (extractLsb'_append_above (h ++ l ++ f) 0#8 8 8).trans (extractLsb'_append_above (h ++ l) f 0 8)
  refine ⟨hhi.trans BitVec.extractLsb'_append_eq_left, hlo.trans BitVec.extractLsb'_append_eq_right, ?fr⟩
  case fr =>
    apply BitVec.eq_of_toNat_eq
    have hf := f.isLt
    simp only [frByte_toNat, toNat_append_eq_add, BitVec.toNat_ofNat]
    omega

/-! ### The step that takes any move -/

/-- R140, R149: the step that takes a move answers a next state with the other moves still to come, but for a reset with
the reserved strap value. -/
theorem step_answers_move {s : State} {x : Input} {rest : List Input} (hi : s.inputs = x :: rest)
    (hx : ¬ ReservedStrap x) : ∃ t, step s = .next t ∧ t.inputs = rest := by
  cases x with
  | command p c => exact step_answers_command hi
  | reset v g =>
    rcases releaseReset_cases v g (s.withInputs rest) with ⟨hv, -⟩ | ⟨w, -, hr⟩
    · exact absurd hv hx
    · exact ⟨_, by simpa only [step, takeInput_cons hi] using hr, rfl⟩

end Sys2Proof.Proofs
end

section
/-! The statements of 30_encoding.md. -/

namespace Sys2Proof.Proofs
open Sys2Proof.Machine

/-- Settles O1: the word of a command has its OP, zero must-be-zero fields, and every operand whole in its field. -/
theorem decodeInvertsEncode : Obligations.DecodeInvertsEncode := fun _ => decode_encode

/-- Settles O2: a legal word has no bit outside the fields that the command's word is made of. -/
theorem encodeInvertsDecode : Obligations.EncodeInvertsDecode :=
  fun _ _ _ h => ⟨wellFormed_of_decode h, port_of_decode h, encode_of_decode h⟩

/-- Settles O3: the four listings are `decode_eq_ok_iff` with each slice read as a field of R7; the mask and match form is
`mask_of_decode` and `decode_of_mask`. -/
theorem decoderFollowsTheFieldTables : Obligations.DecoderFollowsTheFieldTables := by
  intro p c
  refine ⟨fun slot value => ?chwr, fun dt => ?prep, fun index count => ?col1, fun index x y => ?col2,
    ⟨fun ⟨_, _, h⟩ => mask_of_decode h, ?chwrMask⟩, ⟨fun ⟨_, h⟩ => mask_of_decode h, ?prepMask⟩,
    ⟨fun ⟨_, _, h⟩ => mask_of_decode h, ?col1Mask⟩, ⟨fun ⟨_, _, _, h⟩ => mask_of_decode h, ?col2Mask⟩, ?injective⟩
  case chwr =>
    have h := decode_eq_ok_iff_fields (p := p) (i := .chwr slot value) (zerosOk_chwr_iff c)
      (eq_operandsOf_chwr_iff slot value c)
    rwa [and_assoc] at h
  case prep =>
    have h := decode_eq_ok_iff_fields (p := p) (i := .prep dt) (zerosOk_prep_iff c)
      (eq_operandsOf_prep_iff dt c)
    rwa [and_assoc] at h
  case col1 =>
    have h := decode_eq_ok_iff_fields (p := p) (i := .col1 index count) (zerosOk_col1_iff c)
      (eq_operandsOf_col1_iff index count c)
    rwa [and_assoc] at h
  case col2 => exact decode_eq_ok_iff_fields (zerosOk_col2_iff c) (eq_operandsOf_col2_iff index x y c)
  case chwrMask => exact fun ⟨h, hp⟩ => hp ▸ ⟨_, _, decode_of_mask (op := .chwr) h⟩
  case prepMask => exact fun ⟨h, hp⟩ => hp ▸ ⟨_, decode_of_mask (op := .prep) h⟩
  case col1Mask => exact fun ⟨h, hp⟩ => hp ▸ ⟨_, _, decode_of_mask (op := .col1) h⟩
  case col2Mask => exact fun ⟨h, hp⟩ => hp ▸ ⟨_, _, _, decode_of_mask (op := .col2) h⟩
  case injective =>
    intro c' i h h'
    rw [← encode_of_decode h, encode_of_decode h']

/-- Settles O4: the decoder's outcome for each reason in the order of R55, then the one flag that the step sets. -/
theorem illegalWordsSetOnlyTheirFlag : Obligations.IllegalWordsSetOnlyTheirFlag := by
  intro s p c rest hi
  refine ⟨fun hr => decode_of_reservedOp hr p, decode_of_onWrongPort, decode_of_mustBeZeroBroken, decode_of_no_reason,
    fun hreason => ?illegal, fun hop hw hz hslot => ?missingSlot⟩
  case illegal =>
    obtain ⟨why, hd⟩ := decode_of_reason hreason
    exact ⟨_, step_illegal hi hd, rfl, (errorFlags_bits _).1⟩
  case missingSlot =>
    obtain ⟨value, hd⟩ := decode_of_chwr_op hop hw hz
    have hstep : step s = .next ((s.withInputs rest).raise .slot) := by
      rw [step_legal hi hd, exec_chwr, if_pos (by simpa using hslot)]
    exact ⟨_, hstep, rfl, (errorFlags_bits _).2⟩

/-- Settles O5: the four legal words are the words of well-formed commands; the illegal ones fail on the test that the spec
names. -/
theorem specWordsDecode : Obligations.SpecWordsDecode := by
  refine ⟨?chwr, ?prep, ?col1, ?col2, ?wrongPort, ?nonzero, ?reserved⟩
  case chwr => exact decode_encode (i := .chwr 1 0xFF800000#32) rfl
  case prep => exact decode_encode (i := .prep (-5)) rfl
  case col1 => exact decode_encode (i := .col1 50 100) rfl
  case col2 => exact decode_encode (i := .col2 7 16384 (-4095)) rfl
  case wrongPort => exact decode_wrongPort (op := .chwr) rfl (by decide)
  case nonzero => exact decode_nonzero (op := .chwr) rfl (fun hz => absurd hz.2 (by decide))
  case reserved => exact decode_reserved rfl .h

/-- Settles O6: taking the move off the list is all that a step does before it executes a legal word. -/
theorem stepRunsDecodedInstruction : Obligations.StepRunsDecodedInstruction := fun _ _ _ _ _ hi hd => step_legal hi hd

/-- Settles O41: what a command appends is its `responseTo`. -/
theorem responsesAndTheirLayout : Obligations.ResponsesAndTheirLayout :=
  ⟨fun i s _ h => ⟨responseTo i s, exec_responses h, responseTo_length i s⟩, responseWord_fields⟩

/-- Settles O57, by induction on the moves to come: each step takes one. -/
theorem everyOfferedMoveIsExecuted : Obligations.EveryOfferedMoveIsExecuted := by
  intro s
  induction hl : s.inputs generalizing s with
  | nil => exact fun _ => ⟨s, runsTo_zero.2 rfl, hl⟩
  | cons x rest ih =>
    intro hmoves
    obtain ⟨hx, hrest⟩ := List.forall_mem_cons.1 hmoves
    obtain ⟨u, hu, hin⟩ := step_answers_move hl hx
    obtain ⟨t, hrun, hdone⟩ := ih u hin hrest
    exact ⟨t, runsTo_succ.2 ⟨u, hu, hrun⟩, hdone⟩

/-- Settles O19: `n * 65536` has the integer part `n`, the word of CHPACK is its bytes in a row, and the lists are their
expansions. -/
theorem pseudoCommandsStoreTheirOperands : Obligations.PseudoCommandsStoreTheirOperands := by
  refine ⟨fun slot n hn => ⟨_, rfl, dec8_channel_word hn⟩,
    fun slot h l f => ⟨_, rfl, packed_word_eq_append h l f, ?bytes⟩, fun _ _ _ => rfl, fun _ _ => rfl,
    fun dt n => ⟨by simp [frame1], rfl, fun k hk => by simp [frame1, hk]⟩⟩
  case bytes =>
    rw [packed_word_eq_append]
    exact packed_word_bytes h l f

end Sys2Proof.Proofs
end

section
/-! The channel decoder: `dec8` as a clamped floor, as a function of the bits of its word and as a monotonic map, and the
three bytes of a packed slot as bit slices and as numbers. -/

namespace Sys2Proof.Proofs
open Sys2Proof.Machine

/-! ### `dec8` -/

/-- R7: `clamp` in terms of minimum and maximum. -/
theorem clampInt_eq_max_min {lo hi : Int} (h : lo ≤ hi) (n : Int) : clampInt n lo hi = max lo (min hi n) := by
  unfold clampInt
  split_ifs <;> omega

theorem clampInt_le_clampInt {lo hi : Int} (h : lo ≤ hi) {m n : Int} (hmn : m ≤ n) :
    clampInt m lo hi ≤ clampInt n lo hi := by
  rw [clampInt_eq_max_min h, clampInt_eq_max_min h]
  exact max_le_max_left lo (min_le_min_left hi hmn)

/-- R31: the floor of the `Q16.16` number of a slot word is the integer division of the signed word. -/
theorem floor_slotValue (v : Word) : ⌊slotValue v⌋ = v.toInt / 65536 := Rat.floor_intCast_div_natCast v.toInt 65536

/-- R66: the number that `dec8` answers, from the unsigned word: negative words, words of 256 and more, and the rest. -/
theorem dec8_toNat_by_range (v : Word) :
    (dec8 v).toNat = if 2 ^ 31 ≤ v.toNat then 0 else if 2 ^ 24 ≤ v.toNat then 255 else v.toNat / 2 ^ 16 := by
  have hdec := dec8_toNat v
  have hlt := v.isLt
  rw [clampInt_eq_max_min (by decide), BitVec.toInt_eq_toNat_cond] at hdec
  split_ifs at hdec ⊢ <;> omega

/-- R66: the integer part of a slot word is its upper half, read as signed, so `dec8` never sees the fraction. -/
theorem dec8_append (x f : BitVec 16) : dec8 (x ++ f) = BitVec.ofInt 8 (clampInt x.toInt 0 255) := by
  have hhalves : (x ++ f).toInt = 65536 * x.toInt + f.toNat := BitVec.toInt_append
  have hfraction := f.isLt
  have hfloor : (x ++ f).toInt / 65536 = x.toInt := by omega
  rw [dec8, hfloor]

/-- R66: the lower half of a slot word may be any fraction. -/
theorem dec8_replace_fraction (v : Word) (f : BitVec 16) : dec8 (v.extractLsb' 16 16 ++ f) = dec8 v := by
  have hv : v.extractLsb' 16 16 ++ v.extractLsb' 0 16 = v := BitVec.extractLsb'_append_extractLsb'
  calc dec8 (v.extractLsb' 16 16 ++ f) = dec8 (v.extractLsb' 16 16 ++ v.extractLsb' 0 16) := by
        rw [dec8_append, dec8_append]
    _ = dec8 v := by rw [hv]

/-- R67: a larger signed word never decodes to a smaller code. -/
theorem dec8_mono {v w : Word} (h : v.toInt ≤ w.toInt) : (dec8 v).toNat ≤ (dec8 w).toNat := by
  have hfloor : v.toInt / 65536 ≤ w.toInt / 65536 := Int.ediv_le_ediv (by decide) h
  have hclamp := clampInt_le_clampInt (lo := 0) (hi := 255) (by decide) hfloor
  rw [← dec8_toNat, ← dec8_toNat] at hclamp
  exact Int.ofNat_le.1 hclamp

/-! ### The bits of a slot word, and the bytes of a packed slot -/

/-- A bit slice of a slot word as a number. -/
theorem slice_toNat (v : Word) (lo len : Nat) : (v.extractLsb' lo len).toNat = v.toNat / 2 ^ lo % 2 ^ len := by
  rw [BitVec.extractLsb'_toNat, Nat.shiftRight_eq_div_pow]

/-- A single bit of a slot word, from the word's number. -/
theorem bit_eq_true_iff (v : Word) (k : Nat) : v.getLsbD k = true ↔ v.toNat / 2 ^ k % 2 = 1 := by
  rw [← BitVec.testBit_toNat, Nat.testBit_eq_decide_div_mod_eq, decide_eq_true_iff]

/-- R66: `dec8` by the bits of its word: the sign bit, the seven bits of an integer part above 255, the byte itself. -/
theorem dec8_eq_by_bits (v : Word) :
    dec8 v = if v.getLsbD 31 then 0#8 else if v.extractLsb' 24 7 ≠ 0#7 then 255#8 else v.extractLsb' 16 8 := by
  have hlt := v.isLt
  have hsign : v.getLsbD 31 = true ↔ 2 ^ 31 ≤ v.toNat := by rw [bit_eq_true_iff]; omega
  have hover : v.extractLsb' 24 7 ≠ 0#7 ↔ v.toNat / 2 ^ 24 % 2 ^ 7 ≠ 0 := by
    rw [ne_eq, BitVec.toNat_eq, slice_toNat]; rfl
  apply BitVec.eq_of_toNat_eq
  rw [dec8_toNat_by_range]
  by_cases hneg : 2 ^ 31 ≤ v.toNat
  case pos => rw [if_pos hneg, if_pos (hsign.2 hneg)]; rfl
  case neg =>
    rw [if_neg hneg, if_neg (mt hsign.1 hneg)]
    by_cases hbig : 2 ^ 24 ≤ v.toNat
    case pos => rw [if_pos hbig, if_pos (hover.2 (by omega))]; rfl
    case neg =>
      rw [if_neg hbig, if_neg (mt hover.1 (by omega)), slice_toNat]
      omega

/-- R68: the two integer bytes as numbers. -/
theorem hiByte_toNat (v : Word) : (hiByte v).toNat = v.toNat / 2 ^ 24 := by
  have hlt := v.isLt
  rw [hiByte, slice_toNat]
  omega

theorem loByte_toNat (v : Word) : (loByte v).toNat = v.toNat / 2 ^ 16 % 256 := slice_toNat v 16 8

/-- R68: the integer bytes of a word built of two bytes and any fraction. -/
theorem integer_bytes_append (h l : Code8) (f : BitVec 16) : hiByte (h ++ l ++ f) = h ∧ loByte (h ++ l ++ f) = l :=
  ⟨(extractLsb'_append_above (h ++ l) f 8 8).trans BitVec.extractLsb'_append_eq_left,
    (extractLsb'_append_above (h ++ l) f 0 8).trans BitVec.extractLsb'_append_eq_right⟩

/-- R69: adding 128 before dividing by 256 adds bit 7 to the byte above it; the carry out of the byte is lost. -/
theorem frByte_eq_byte_add_bit (v : Word) :
    frByte v = v.extractLsb' 8 8 + (if v.getLsbD 7 then 1#8 else 0#8) := by
  apply BitVec.eq_of_toNat_eq
  rw [frByte_toNat, BitVec.toNat_add, slice_toNat]
  simp only [bit_eq_true_iff]
  split_ifs <;> rw [BitVec.toNat_ofNat] <;> omega

/-- R69: the signed and the unsigned reading of a word differ by a multiple of 65536, which does not reach the third byte. -/
theorem frByte_toNat_signed (v : Word) : ((frByte v).toNat : Int) = (v.toInt + 128) / 256 % 256 := by
  rw [frByte_toNat, BitVec.toInt_eq_toNat_cond]
  split_ifs <;> omega

end Sys2Proof.Proofs
end

section
/-! The statements of 40_channel_decoder.md. -/

namespace Sys2Proof.Proofs
open Sys2Proof.Machine

/-- Settles O14: the clamped floor is the model's `clampInt` of the integer division; the bits and the fraction follow. -/
theorem dec8FloorsThenClamps : Obligations.Dec8FloorsThenClamps := by
  intro v
  refine ⟨?floor, dec8_eq_by_bits v, dec8_replace_fraction v⟩
  case floor => rw [dec8_toNat, clampInt_eq_max_min (by decide), floor_slotValue]

/-- Settles O15: on channel words order and injectivity are those of the codes; on all words each of floor and clamp is
monotonic. -/
theorem dec8InvertsChannelEncoding : Obligations.Dec8InvertsChannelEncoding := by
  have hcode : ∀ {n : Nat}, n ≤ 255 → (dec8 (BitVec.ofNat 32 (n * 65536))).toNat = n :=
    fun hn => (dec8_channel_word hn).2
  refine ⟨fun v => hcode, fun v w hvw hw => ?mono, fun v w hv hw heq => ?inj, fun v w => dec8_mono⟩
  case mono => rwa [hcode (hvw.trans hw), hcode hw]
  case inj => rw [← hcode hv, heq, hcode hw]

/-- Settles O16: both bytes are slices, as numbers and out of a concatenation. -/
theorem packedIntegerBytesRoundTrip : Obligations.PackedIntegerBytesRoundTrip :=
  ⟨fun v => ⟨hiByte_toNat v, loByte_toNat v⟩, integer_bytes_append, rfl⟩

/-- Settles O17: the three readings of the rounded byte, the exact case, and the corner values of R69. -/
theorem packedThirdByteRounds : Obligations.PackedThirdByteRounds := by
  refine ⟨fun v => ⟨frByte_toNat v, frByte_eq_byte_add_bit v, frByte_toNat_signed v⟩, fun h l f => ?threeBytes, by decide⟩
  case threeBytes =>
    obtain ⟨-, -, hfr⟩ := packed_word_bytes h l f
    exact hfr

/-- Settles O20: to an existing slot CHWR is one write of the Channel Buffer, whose rules give each clause. -/
theorem chwrWritesExactlyOneSlot : Obligations.ChwrWritesExactlyOneSlot := fun s slot value hwf hslot =>
  ⟨s.writeSlot slot value, exec_chwr_existing hslot value, rfl, Memory.wf_write hwf slot value,
    Memory.read_write_same hwf slot value, fun _ ha => Memory.read_write_other ha value⟩

/-- Settles O18: R70's listing is the definition of the decoder, one clause per variant. -/
theorem slotMeaningsByVariant : Obligations.SlotMeaningsByVariant := fun _ => ⟨rfl, rfl, rfl⟩

/-- Settles O21: the slot test of CHWR raises SLOT, which sets that flag only. -/
theorem chwrToMissingSlotSetsSlotFlag : Obligations.ChwrToMissingSlotSetsSlotFlag := by
  intro s slot value hslot
  rw [exec_chwr, if_pos hslot]
  rfl

/-- Settles O23: PASS3 has EFFECT_EN = 0, and its colour codes come from slots 0, 1 and 2 by `dec8`. -/
theorem prepInPassThrough : Obligations.PrepInPassThrough := by
  intro s dt hv
  have hcodes := (slotMeaningsByVariant s.ch).1
  rw [exec_prep, prepareFrame_noEffect _ dt (by rw [hv]; rfl), hv, hcodes]

end Sys2Proof.Proofs
end

section
/-! The effect step: the period of a rate code, the on-window, the phase as a residue, PREP in hold and out of it, runs of
PREPs, and what a run without a reset keeps. -/

namespace Sys2Proof.Proofs
open Sys2Proof.Machine

/-! ### The period and the on-window -/

/-- R88: the subtraction in the period never goes below zero. -/
theorem period_toInt (q : Code8) : (period q : Int) = 38250 - 135 * (q.toNat : Int) := by
  have := q.isLt
  unfold period
  omega

/-- R88: `135 / 2550000` is `0.0135 / 255`. -/
theorem period_inTimeUnits (q : Code8) :
    ticksInTimeUnits (period q) = 15 / 1000 - codeValue q * (135 / 10000) := by
  have hperiod : ((period q : Int) : Rat) = 38250 - 135 * (q.toNat : Rat) := by
    rw [period_toInt]
    push_cast
    ring
  have hticks : (Config.ticksPerTimeUnit : Rat) = 2550000 := by norm_num [Config.ticksPerTimeUnit]
  rw [ticksInTimeUnits, codeValue, hticks, ← Int.cast_natCast (period q), hperiod]
  ring

/-- R90: out of hold the waveform bit compares ten times ACC with the period. -/
theorem waveFlag_eq_true_iff {q : Code8} (hq : q ≠ 0#8) (a : BitVec 16) :
    waveFlag q a = true ↔ 10 * a.toNat < period q := by
  simp [waveFlag, hq]

/-- How many numbers below `n` are below `k`. -/
theorem countP_range_lt (k n : Nat) : (List.range n).countP (fun a => a < k) = min k n := by
  induction n with
  | zero => simp
  | succ n ih =>
    rw [List.range_succ, List.countP_append, ih, List.countP_singleton]
    simp only [decide_eq_true_eq]
    split_ifs <;> omega

/-- R90: over one period the waveform bit is 1 exactly at the ticks below `ceil(P / 10)`. -/
theorem waveFlag_tick {q : Code8} (hq : q ≠ 0#8) {a : Nat} (ha : a < period q) :
    waveFlag q (BitVec.ofNat 16 a) = true ↔ a < (period q + 9) / 10 := by
  rw [waveFlag_eq_true_iff hq, BitVec.toNat_ofNat, Nat.mod_eq_of_lt (ha.trans (period_lt q))]
  omega

/-! ### The elapsed time and the phase -/

theorem dtEff_natCast (n : Nat) : dtEff (n : Int) = n := by
  have := dtEff_eq n
  omega

theorem dtEff_of_neg {dt : Int} (h : dt < 0) : dtEff dt = dtEff 0 := by
  have := dtEff_eq dt
  have := dtEff_eq 0
  omega

/-- R89: ACC sees of the elapsed time only its residue modulo the period. -/
theorem accAfter_congr (acc : BitVec 16) {q : Code8} {d d' : Int} (h : dtEff d ≡ dtEff d' [MOD period q]) :
    accAfter acc q d = accAfter acc q d' := by
  apply BitVec.eq_of_toNat_eq
  have hsum : (acc.toNat + dtEff d) % period q = (acc.toNat + dtEff d') % period q := h.add_left acc.toNat
  rw [accAfter_toNat, accAfter_toNat, hsum]

/-- R86, R89: no elapsed time leaves ACC where it is, unless the period has shrunk below it. -/
theorem accAfter_zero {acc : BitVec 16} {q : Code8} (h : acc.toNat < period q) : accAfter acc q 0 = acc := by
  apply BitVec.eq_of_toNat_eq
  have hstays : (acc.toNat + dtEff 0) % period q = acc.toNat := Nat.mod_eq_of_lt h
  rw [accAfter_toNat, hstays, ite_self]

/-! ### PREP and the effect -/

/-- R86: PREP reads its elapsed time only to advance ACC. -/
theorem exec_prep_congr {s : State} {d d' : Int}
    (h : accAfter s.acc (decodeChannels s.variant s.ch).q d = accAfter s.acc (decodeChannels s.variant s.ch).q d') :
    exec (.prep d) s = exec (.prep d') s := by
  rw [exec_prep, exec_prep]
  cases he : effectEn s.variant with
  | false => rw [prepareFrame_noEffect _ d he, prepareFrame_noEffect _ d' he]
  | true => rw [prepareFrame_effect _ d he, prepareFrame_effect _ d' he, effectStep_eq, effectStep_eq, h]

/-- R21: what a PREP leaves unchanged. -/
theorem afterPrep_keeps (dt : Int) (s : State) :
    (afterPrep dt s).variant = s.variant ∧ (afterPrep dt s).ch = s.ch ∧ (afterPrep dt s).responses = s.responses ∧
    (afterPrep dt s).errIll = s.errIll ∧ (afterPrep dt s).errSlot = s.errSlot := by
  simp [afterPrep]

section
variable {s : State} (he : effectEn s.variant = true)
include he

/-- R72, R92: PREP with EFFECT_EN = 1, element by element. -/
theorem afterPrep_effect (dt : Int) {d : Channels} (hd : d = decodeChannels s.variant s.ch) :
    afterPrep dt s =
      { s with
        fsR := d.r, fsG := d.g, fsB := d.b, fsI := d.i, fsQ := d.q
        fsE := brightness d.i (waveFlag d.q (accAfter s.acc d.q dt)), acc := accAfter s.acc d.q dt
        stHold := holdFlag d.q, stWave := waveFlag d.q (accAfter s.acc d.q dt), stFV := true } := by
  rw [afterPrep, ← hd, prepareFrame_effect d dt he, effectStep_eq]

/-- R87: PREP in hold. -/
theorem afterPrep_hold (dt : Int) (hq : (decodeChannels s.variant s.ch).q = 0#8) :
    (afterPrep dt s).acc = s.acc ∧ (afterPrep dt s).stHold = true ∧ (afterPrep dt s).stWave = true ∧
    (afterPrep dt s).fsE = (decodeChannels s.variant s.ch).i := by
  rw [afterPrep_effect he dt rfl, hq]
  exact ⟨rfl, rfl, rfl, rfl⟩

/-- R89 to R92: PREP out of hold. -/
theorem afterPrep_running (dt : Int) {d : Channels} (hd : d = decodeChannels s.variant s.ch) (hq : d.q ≠ 0#8) :
    (afterPrep dt s).acc.toNat = (s.acc.toNat + dtEff dt) % period d.q ∧ (afterPrep dt s).stHold = false ∧
    ((afterPrep dt s).stWave = true ↔ 10 * (afterPrep dt s).acc.toNat < period d.q) ∧
    (afterPrep dt s).fsE = if (afterPrep dt s).stWave then d.i else 0#8 := by
  rw [afterPrep_effect he dt hd]
  have hacc := accAfter_toNat s.acc d.q dt
  rw [if_neg hq] at hacc
  exact ⟨hacc, decide_eq_false hq, waveFlag_eq_true_iff hq _, rfl⟩

end

/-! ### Rate code 0 -/

/-- R66, R87: `dec8` answers 0 exactly below 1.0, negative slot values included. -/
theorem dec8_eq_zero_iff (v : Word) : dec8 v = 0#8 ↔ slotValue v < 1 := by
  have hdec := dec8_toNat v
  rw [clampInt_eq_max_min (by decide), ← floor_slotValue] at hdec
  have hfloor : slotValue v < 1 ↔ ⌊slotValue v⌋ < 1 := by rw [Int.floor_lt, Int.cast_one]
  rw [hfloor, BitVec.toNat_eq, BitVec.toNat_ofNat]
  omega

/-! ### Runs of PREPs -/

/-- The state after PREPs with these elapsed times, in this order. -/
def afterPreps (ds : List Int) (s : State) : State := ds.foldl (fun t dt => afterPrep dt t) s

theorem afterPreps_cons (dt : Int) (ds : List Int) (s : State) :
    afterPreps (dt :: ds) s = afterPreps ds (afterPrep dt s) := rfl

theorem afterPreps_concat (ds : List Int) (dt : Int) (s : State) :
    afterPreps (ds ++ [dt]) s = afterPrep dt (afterPreps ds s) := by
  simp [afterPreps]

/-- R46, R72: PREPs put in front of any moves are executed one after the other. -/
theorem runsTo_afterPreps_withInputs {ds : List Int} (hds : ∀ x ∈ ds, -2147483648 ≤ x ∧ x ≤ 2147483647)
    (s : State) (rest : List Input) :
    RunsTo ds.length (s.withInputs (ds.map (fun x => offer (.prep x)) ++ rest)) ((afterPreps ds s).withInputs rest) := by
  induction ds generalizing s with
  | nil => exact runsTo_zero.2 rfl
  | cons dt ds ih =>
    obtain ⟨⟨hlo, hhi⟩, hds⟩ := List.forall_mem_cons.1 hds
    refine runsTo_succ.2 ⟨_, ?_, ih hds (afterPrep dt s)⟩
    rw [step_legal rfl (decode_prep_word hlo hhi), exec_prep_eq_afterPrep, State.withInputs_withInputs,
      afterPrep_withInputs]
    rfl

/-- The same from a state in which they are the next moves offered. -/
theorem runsTo_afterPreps {ds : List Int} (hds : ∀ x ∈ ds, -2147483648 ≤ x ∧ x ≤ 2147483647)
    {s : State} {rest : List Input} (hi : s.inputs = ds.map (fun x => offer (.prep x)) ++ rest) :
    RunsTo ds.length s ((afterPreps ds s).withInputs rest) := by
  have hrun := runsTo_afterPreps_withInputs hds s rest
  rw [← hi] at hrun
  exact hrun

/-- R21 over a run of PREPs. -/
theorem afterPreps_keeps (ds : List Int) (s : State) :
    (afterPreps ds s).variant = s.variant ∧ (afterPreps ds s).ch = s.ch ∧ (afterPreps ds s).responses = s.responses ∧
    (afterPreps ds s).errIll = s.errIll ∧ (afterPreps ds s).errSlot = s.errSlot := by
  induction ds generalizing s with
  | nil => exact ⟨rfl, rfl, rfl, rfl, rfl⟩
  | cons dt ds ih =>
    obtain ⟨hv, hch, hresp, hill, hslot⟩ := afterPrep_keeps dt s
    simpa only [afterPreps_cons, hv, hch, hresp, hill, hslot] using ih (afterPrep dt s)

/-- R95: over PREPs in hold the phase stands still. -/
theorem afterPreps_acc_hold {s : State} (he : effectEn s.variant = true) (hq : (decodeChannels s.variant s.ch).q = 0#8)
    (ds : List Int) : (afterPreps ds s).acc = s.acc := by
  induction ds generalizing s with
  | nil => rfl
  | cons dt ds ih =>
    obtain ⟨hv, hch, -⟩ := afterPrep_keeps dt s
    obtain ⟨hacc, -⟩ := afterPrep_hold he dt hq
    rw [afterPreps_cons, ih (by rwa [hv]) (by rwa [hv, hch]), hacc]

/-- R94: modulo the period, PREPs out of hold add their elapsed times to the phase. -/
theorem afterPreps_acc_running {s : State} (he : effectEn s.variant = true) {d : Channels}
    (hd : d = decodeChannels s.variant s.ch) (hq : d.q ≠ 0#8) (ds : List Int) :
    (afterPreps ds s).acc.toNat ≡ s.acc.toNat + (ds.map dtEff).sum [MOD period d.q] := by
  induction ds generalizing s with
  | nil => rfl
  | cons dt ds ih =>
    obtain ⟨hv, hch, -⟩ := afterPrep_keeps dt s
    obtain ⟨hacc, -⟩ := afterPrep_running he dt hd hq
    have hfirst : (afterPrep dt s).acc.toNat ≡ s.acc.toNat + dtEff dt [MOD period d.q] := hacc ▸ Nat.mod_modEq _ _
    have hrest := ih (s := afterPrep dt s) (by rwa [hv]) (by rwa [hv, hch])
    rw [afterPreps_cons, List.map_cons, List.sum_cons, ← Nat.add_assoc]
    exact hrest.trans (hfirst.add_right _)

/-- R95: the last of a run of PREPs in hold shows the intensity. -/
theorem afterPreps_hold {s : State} (he : effectEn s.variant = true) (hq : (decodeChannels s.variant s.ch).q = 0#8)
    {ds : List Int} (hne : ds ≠ []) :
    (afterPreps ds s).acc = s.acc ∧ (afterPreps ds s).fsE = (decodeChannels s.variant s.ch).i ∧
    (afterPreps ds s).stHold = true ∧ (afterPreps ds s).stWave = true := by
  obtain ⟨init, last, rfl⟩ := (List.eq_nil_or_concat' ds).resolve_left hne
  obtain ⟨hv, hch, -⟩ := afterPreps_keeps init s
  obtain ⟨hacc, hhold, hwave, hbright⟩ :=
    afterPrep_hold (s := afterPreps init s) (by rwa [hv]) last (by rwa [hv, hch])
  rw [hv, hch] at hbright
  rw [afterPreps_concat]
  exact ⟨hacc.trans (afterPreps_acc_hold he hq init), hbright, hhold, hwave⟩

/-- R94: the last of a run of PREPs out of hold reduces the phase and gates the brightness by it. -/
theorem afterPreps_running {s : State} (he : effectEn s.variant = true) {d : Channels}
    (hd : d = decodeChannels s.variant s.ch) (hq : d.q ≠ 0#8) {ds : List Int} (hne : ds ≠ []) :
    (afterPreps ds s).acc.toNat = (s.acc.toNat + (ds.map dtEff).sum) % period d.q ∧
    (afterPreps ds s).fsE = if 10 * (afterPreps ds s).acc.toNat < period d.q then d.i else 0#8 := by
  obtain ⟨init, last, rfl⟩ := (List.eq_nil_or_concat' ds).resolve_left hne
  obtain ⟨hv, hch, -⟩ := afterPreps_keeps init s
  obtain ⟨hacc, -, hwave, hbright⟩ :=
    afterPrep_running (s := afterPreps init s) (by rwa [hv]) last (by rwa [hv, hch]) hq
  have hbefore := afterPreps_acc_running he hd hq init
  rw [afterPreps_concat]
  refine ⟨?_, by simpa only [hwave] using hbright⟩
  rw [hacc, List.map_append, List.sum_append, ← Nat.add_assoc]
  exact hbefore.add_right _

/-! ### Runs without a reset -/

/-- What every step but a reset keeps, a run without a reset keeps. -/
theorem runsTo_keeps {P : State → Prop} (hstep : ∀ {s t}, NoResetNext s → step s = .next t → P s → P t)
    {n : Nat} {s t : State} (hn : ∀ x ∈ s.inputs.take n, ¬ IsReset x) (h : RunsTo n s t) (hs : P s) : P t := by
  induction n generalizing s with
  | zero => exact runsTo_zero.1 h ▸ hs
  | succ n ih =>
    obtain ⟨u, hu, hrun⟩ := runsTo_succ.1 h
    have hnone : ¬ ∃ x ∈ s.inputs.take (n + 1), IsReset x := fun ⟨x, hx, hr⟩ => hn x hx hr
    rw [exists_mem_take_succ, not_or] at hnone
    obtain ⟨hhead, htail⟩ := hnone
    have hnext : NoResetNext s := fun v g rest hi => hhead ⟨.reset v g, by simp [hi], trivial⟩
    have hlater : ∀ x ∈ u.inputs.take n, ¬ IsReset x := by
      rw [step_takes_one hu]
      exact fun x hx hr => htail ⟨x, hx, hr⟩
    exact ih hlater hrun (hstep hnext hu hs)

/-- The block has no effect, and its effect registers stand at their reset value (R22 (e), R93). -/
def EffectOff (s : State) : Prop := effectEn s.variant = false ∧ EffectZero s

/-- R93 over one step. -/
theorem step_keeps_effectOff {s t : State} (hn : NoResetNext s) (h : step s = .next t) (hs : EffectOff s) :
    EffectOff t := by
  obtain ⟨he, hzero⟩ := hs
  obtain ⟨hv, -⟩ := step_keeps_straps hn h
  refine ⟨hv ▸ he, ?_⟩
  rcases step_frame_cases hn h with ⟨c, rest, dt, -, -, rfl⟩ | ⟨-, hf⟩
  case inl =>
    rw [prepareFrame_noEffect _ dt (s := s.withInputs rest) he]
    exact hzero
  case inr =>
    obtain ⟨-, -, -, hI, hQ, hE, hA, -, hH, hW⟩ := hf
    rwa [EffectZero, hI, hQ, hE, hA, hH, hW] at hzero

end Sys2Proof.Proofs
end

section
/-! The statements of 41_effect_phase_accumulator.md. -/

namespace Sys2Proof.Proofs
open Sys2Proof.Machine

/-- Settles O24: no step but a reset moves the effect registers of a block without effect, and its PREP never runs the
effect step that would read DT. -/
theorem passThroughNeverTouchesTheEffect : Obligations.PassThroughNeverTouchesTheEffect := by
  refine ⟨fun v g => ?reset, fun n s t he hzero hn h => ?run, fun s d d' he => ?dt⟩
  case reset => exact ⟨rfl, rfl, rfl, rfl, rfl, rfl⟩
  case run =>
    obtain ⟨-, hzero'⟩ := runsTo_keeps step_keeps_effectOff hn h ⟨he, hzero⟩
    exact hzero'
  case dt => rw [exec_prep, exec_prep, prepareFrame_noEffect _ d he, prepareFrame_noEffect _ d' he]

/-- Settles O25: the frame is that of `afterPrep_effect`, and each branch is the rule for PREP in hold or out of it. -/
theorem prepRunsTheEffectStep : Obligations.PrepRunsTheEffectStep := by
  intro s dt he
  refine ⟨afterPrep dt s, _, exec_prep_eq_afterPrep dt s, rfl, ?frame, ?branches⟩
  case frame => rw [afterPrep_effect he dt rfl]
  case branches =>
    split
    case isTrue hq => exact afterPrep_hold he dt hq
    case isFalse hq =>
      obtain ⟨hacc, hhold, hwave, hbright⟩ := afterPrep_running he dt rfl hq
      rw [← period_toInt, ← dtEff_eq]
      exact ⟨mod_cast hacc, hhold, mod_cast hwave, hbright⟩

/-- Settles O26: the rule for PREP in hold, and when each variant's rate slot decodes to 0. -/
theorem rateZeroHoldsTheEffectOn : Obligations.RateZeroHoldsTheEffectOn := by
  intro s dt he
  refine ⟨fun hq => ⟨afterPrep dt s, exec_prep_eq_afterPrep dt s, afterPrep_hold he dt hq⟩, fun hv => ?strobe5,
    fun hv => ?packed2⟩
  case strobe5 =>
    rw [hv]
    exact dec8_eq_zero_iff (s.ch.read 4)
  case packed2 =>
    rw [hv, ← loByte_toNat]
    exact BitVec.toNat_eq

/-- Settles O27: every clause follows from the period as an integer. -/
theorem periodIsTheLinearMap : Obligations.PeriodIsTheLinearMap := by
  refine ⟨fun q hq => ⟨period_toInt q, ?factored, period_inTimeUnits q, ?low, period_le hq⟩,
    fun q r _ hqr => ?decreasing, rfl, rfl⟩
  case factored =>
    rw [period_toInt]
    ring
  case low =>
    have hperiod := period_toInt q
    have hlt := q.isLt
    omega
  case decreasing =>
    have hq := period_toInt q
    have hr := period_toInt r
    omega

/-- Settles O28: out of hold the bit is 1 exactly on the first `ceil(P / 10)` ticks of the period. -/
theorem onWindowIsATenthOfThePeriod : Obligations.OnWindowIsATenthOfThePeriod := by
  refine ⟨fun q a hq => ?tenth, fun _ => rfl, fun q hq => ?count⟩
  case tenth =>
    have hpos : (0 : Rat) < period q := mod_cast period_pos q
    rw [waveFlag_eq_true_iff hq, div_lt_div_iff₀ hpos (by norm_num), one_mul, mul_comm]
    exact_mod_cast Iff.rfl
  case count =>
    have hticks : (List.range (period q)).countP (fun a => waveFlag q (BitVec.ofNat 16 a)) =
        (List.range (period q)).countP (fun a => a < (period q + 9) / 10) :=
      List.countP_congr fun a ha => by rw [waveFlag_tick hq (List.mem_range.1 ha), decide_eq_true_iff]
    have hpos := period_pos q
    rw [hticks, countP_range_lt]
    omega

/-- Settles O29: PREP sees of DT only `dt_eff(DT)`, and writes no error flag. -/
theorem negativeElapsedTimeCountsAsZero : Obligations.NegativeElapsedTimeCountsAsZero := by
  intro s dt
  have heff := dtEff_eq dt
  refine ⟨?value, fun _ => ?bound, fun hneg => ?negative, ⟨afterPrep dt s, exec_prep_eq_afterPrep dt s, ?flags⟩,
    fun hacc => ⟨afterPrep 0 s, exec_prep_eq_afterPrep 0 s, ?zero⟩⟩
  case value => split <;> omega
  case bound => omega
  case negative =>
    have hsame : dtEff dt = dtEff 0 := dtEff_of_neg hneg
    exact exec_prep_congr (accAfter_congr s.acc (hsame ▸ Nat.ModEq.refl _))
  case flags =>
    obtain ⟨-, -, -, hill, hslot⟩ := afterPrep_keeps dt s
    exact ⟨hill, hslot⟩
  case zero => rw [afterPrep, prepareFrame_acc, accAfter_zero hacc, ite_self]

/-- Settles O30: the PREPs before the last one fix the phase modulo the period, and a whole period more in one DT does not
move it. -/
theorem effectIsPeriodicAtConstantRate : Obligations.EffectIsPeriodicAtConstantRate := by
  refine ⟨fun s ds rest d hd he hq hne hds hi => ?run, fun s dt hdt he hq => ?wholePeriod⟩
  case run =>
    have hrange : ∀ x ∈ ds.map (Nat.cast (R := Int)), -2147483648 ≤ x ∧ x ≤ 2147483647 := by
      intro x hx
      obtain ⟨n, hn, rfl⟩ := List.mem_map.1 hx
      have := hds n hn
      omega
    have helapsed : (ds.map (Nat.cast (R := Int))).map dtEff = ds := by
      rw [List.map_map]
      exact List.map_id'' dtEff_natCast ds
    have hrun := runsTo_afterPreps hrange (hi.trans (by rw [List.map_map]; rfl))
    rw [List.length_map] at hrun
    obtain ⟨hacc, hbright⟩ := afterPreps_running he hd hq (ds := ds.map Nat.cast) (by simpa using hne)
    rw [helapsed] at hacc
    obtain ⟨-, hch, hresp, hill, hslot⟩ := afterPreps_keeps (ds.map Nat.cast) s
    exact ⟨(afterPreps (ds.map Nat.cast) s).withInputs rest, hrun, hacc, hbright, hch, rfl, hresp, hill, hslot⟩
  case wholePeriod =>
    obtain ⟨n, rfl⟩ := Int.eq_ofNat_of_zero_le hdt
    refine exec_prep_congr (accAfter_congr s.acc ?_)
    rw [← Int.natCast_add, dtEff_natCast, dtEff_natCast]
    exact Nat.add_modEq_right

/-- Settles O31: hold keeps the phase over any run, and a release from phase 0 advances it by DT without wrapping. -/
theorem holdKeepsThePhase : Obligations.HoldKeepsThePhase := by
  refine ⟨fun s ds rest he hq hne hds hi => ?run, fun s dt he hzero hdt hq hwindow => ?release⟩
  case run =>
    obtain ⟨hacc, hbright, hhold, hwave⟩ := afterPreps_hold he hq hne
    obtain ⟨-, hch, -⟩ := afterPreps_keeps ds s
    exact ⟨(afterPreps ds s).withInputs rest, runsTo_afterPreps hds hi, hacc, hbright, hhold, hwave, hch, rfl⟩
  case release =>
    obtain ⟨n, rfl⟩ := Int.eq_ofNat_of_zero_le hdt
    obtain ⟨hacc, -, hwave, -⟩ := afterPrep_running he n rfl hq
    have hbelow : n < period (decodeChannels s.variant s.ch).q := by omega
    rw [hzero, dtEff_natCast, BitVec.toNat_ofNat, Nat.zero_mod, Nat.zero_add, Nat.mod_eq_of_lt hbelow] at hacc
    exact ⟨afterPrep n s, exec_prep_eq_afterPrep n s, hwave.2 (by omega), mod_cast hacc⟩

end Sys2Proof.Proofs
end

section
/-! The rules of the two band predicates (42_spatial_region_selector.md R101 to R105): when each bit is set, as integers
and as the source's rationals, and where it is clear. -/

namespace Sys2Proof.Proofs
open Sys2Proof.Machine

/-! ### When a pixel is in the band -/

/-- R101. -/
theorem band1_eq_true_iff (v : Variant) (index count : Nat) :
    band1 v index count = true ↔ regionEn v = true ∧ 3 * count < 8 * index ∧ 8 * index < 5 * count := by
  simp only [band1, Bool.and_eq_true, decide_eq_true_iff, and_assoc]

/-- R102. -/
theorem band2_eq_true_iff (v : Variant) (y : Int) :
    band2 v y = true ↔ regionEn v = true ∧ -4096 < y ∧ y < 4096 := by
  simp only [band2, Bool.and_eq_true, decide_eq_true_iff, and_assoc]

/-- R101, R103: a pixel on a band edge or outside, one of a strip without pixels too, is in the base band. -/
theorem band1_eq_false_of_outside (v : Variant) {index count : Nat}
    (h : 8 * index ≤ 3 * count ∨ 5 * count ≤ 8 * index) : band1 v index count = false := by
  rw [Bool.eq_false_iff, ne_eq, band1_eq_true_iff]
  rintro ⟨-, hlow, hhigh⟩
  omega

/-- R102: a pixel on a band edge or outside is in the base band. -/
theorem band2_eq_false_of_outside (v : Variant) {y : Int} (h : y ≤ -4096 ∨ 4096 ≤ y) : band2 v y = false := by
  rw [Bool.eq_false_iff, ne_eq, band2_eq_true_iff]
  rintro ⟨-, hlow, hhigh⟩
  omega

/-- R100: the policy of REGION_EN = 0 is the constant 0 for 1-D addressing. -/
theorem band1_eq_false_of_regionOff {v : Variant} (h : regionEn v = false) (index count : Nat) :
    band1 v index count = false := by
  rw [band1, h, Bool.false_and, Bool.false_and]

/-- R100: the policy of REGION_EN = 0 is the constant 0 for 2-D addressing. -/
theorem band2_eq_false_of_regionOff {v : Variant} (h : regionEn v = false) (y : Int) : band2 v y = false := by
  rw [band2, h, Bool.false_and, Bool.false_and]

/-! ### The source's predicates over the rationals -/

/-- R101: cross-multiplication by a positive COUNT does not round the quotient. -/
theorem abs_fraction_sub_half_lt_iff {index count : Nat} (hc : 0 < count) :
    |(index : Rat) / count - 1 / 2| < 1 / 8 ↔ 3 * count < 8 * index ∧ 8 * index < 5 * count := by
  have hpos : (0 : Rat) < count := mod_cast hc
  have hlow : -(1 / 8) < (index : Rat) / count - 1 / 2 ↔ 3 * count < 8 * index := by
    rw [lt_sub_iff_add_lt, lt_div_iff₀ hpos, ← Nat.cast_lt (α := Rat)]
    push_cast
    constructor <;> intro h <;> linarith
  have hhigh : (index : Rat) / count - 1 / 2 < 1 / 8 ↔ 8 * index < 5 * count := by
    rw [sub_lt_iff_lt_add, div_lt_iff₀ hpos, ← Nat.cast_lt (α := Rat)]
    push_cast
    constructor <;> intro h <;> linarith
  rw [abs_lt, hlow, hhigh]

/-- R102: 1/8 is 4096 of the 32768 parts of the coordinate's unit. -/
theorem abs_coordValue_lt_iff (y : Int) : |coordValue y| < 1 / 8 ↔ -4096 < y ∧ y < 4096 := by
  have heighth : (1 / 8 : Rat) * 32768 = ((4096 : Int) : Rat) := by norm_num
  rw [coordValue, abs_div, abs_of_pos (show (0 : Rat) < 32768 by norm_num), div_lt_iff₀ (by norm_num), heighth,
    ← Int.cast_abs, Int.cast_lt, abs_lt]

end Sys2Proof.Proofs
end

section
/-! The statements of 42_spatial_region_selector.md. -/

namespace Sys2Proof.Proofs
open Sys2Proof.Machine

/-- Settles O34: every clause reads off the comparison of R101, the second through the exact quotient. -/
theorem band1IsTheCentredQuarter : Obligations.Band1IsTheCentredQuarter := by
  intro v index count
  refine ⟨band1_eq_true_iff v index count, fun hc => ?fraction, fun hedge => ?edge, fun hr => ⟨?hundred, ?eight⟩⟩
  case fraction => rw [band1_eq_true_iff, abs_fraction_sub_half_lt_iff hc]
  case edge => exact band1_eq_false_of_outside v (hedge.imp Eq.le Eq.ge)
  case hundred | eight =>
    rw [band1_eq_true_iff, and_iff_right hr]
    omega

/-- Settles O35: the comparison of R102 bounds the coordinate that the word stands for. -/
theorem band2IsTheCentredBand : Obligations.Band2IsTheCentredBand := by
  intro v y
  refine ⟨band2_eq_true_iff v y, ?_⟩
  rw [band2_eq_true_iff, abs_coordValue_lt_iff]

/-- Settles O36: the middle is inside both comparisons, a position at least 1/8 away is outside, and without REGION_EN
there is no band. -/
theorem bandLaws : Obligations.BandLaws := by
  intro v
  refine ⟨fun hr => ⟨fun index count hc hmid => ?middle, fun _ _ => band1_eq_false_of_outside v, ?zero,
    fun _ => band2_eq_false_of_outside v⟩, fun hr => ⟨band1_eq_false_of_regionOff hr, band2_eq_false_of_regionOff hr⟩⟩
  case middle =>
    rw [band1_eq_true_iff]
    exact ⟨hr, by omega, by omega⟩
  case zero =>
    rw [band2_eq_true_iff]
    exact ⟨hr, by omega, by omega⟩

/-- Settles O37: an index at or above the count lies on or past the band's upper edge, so COL1 answers the base colour. -/
theorem malformedDescriptorsGetTheBaseColour : Obligations.MalformedDescriptorsGetTheBaseColour := by
  refine ⟨fun s index count hle => ?past, fun v => ⟨?first, ?second, ?last, fun hr => ⟨?half, ?middle⟩⟩⟩
  case past =>
    have hband : band1 s.variant index count = false := band1_eq_false_of_outside s.variant (.inr (by omega))
    rw [exec_col1, hband]
    rfl
  case first | second => exact band1_eq_false_of_outside v (.inl (by omega))
  case last => exact band1_eq_false_of_outside v (.inr (by omega))
  case half => exact (band1_eq_true_iff v 1 2).2 ⟨hr, by omega, by omega⟩
  case middle => exact (band1_eq_true_iff v 32768 65535).2 ⟨hr, by omega, by omega⟩

/-- Settles O38: COL2's answer names neither INDEX nor X, and a Y outside [-0.5, 0.5] is outside the band of R102. -/
theorem col2IgnoresIndexAndX : Obligations.Col2IgnoresIndexAndX := by
  refine ⟨fun s index index' x x' y => ?ignored, fun v y hy => ?outside, fun v => ?mostNegative⟩
  case ignored => rw [exec_col2, exec_col2]
  case outside => exact band2_eq_false_of_outside v (by omega)
  case mostNegative => exact band2_eq_false_of_outside v (.inl (by omega))

end Sys2Proof.Proofs
end

section
/-! The rules of the colour compositor (43_color_compositor.md R111 to R117): the word of a composed pixel, a colour command
as nothing but its response, runs of colour commands, and where the strap PACKED_G_SRC is read. -/

namespace Sys2Proof.Proofs
open Sys2Proof.Machine

/-! ### The word of a composed pixel -/

/-- R111: an effect-band pixel is grey at the effect brightness. -/
theorem responseWord_effect (s : State) :
    responseWord true (compose true s) = 1#1 ++ s.fsE ++ s.fsE ++ s.fsE := rfl

/-- R111, R112: a base-band pixel shows the base colour, whose green byte is chosen by the strap in PACKED2. -/
theorem responseWord_base (s : State) :
    responseWord false (compose false s) =
      0#1 ++ s.fsR ++ (if s.variant = .packed2 ∧ s.packedGSrc = .red then s.fsR else s.fsG) ++ s.fsB := by
  by_cases hred : s.variant = .packed2 ∧ s.packedGSrc = .red
  case pos => simp only [responseWord, compose, baseColour, if_pos hred]; rfl
  case neg => simp only [responseWord, compose, baseColour, if_neg hred]; rfl

/-- R111, R112: the word of a pixel whose band bit decides `inBand`. -/
theorem responseWord_compose {band : Bool} {inBand : Prop} [Decidable inBand] (h : band = true ↔ inBand) (s : State) :
    responseWord band (compose band s) =
      if inBand then 1#1 ++ s.fsE ++ s.fsE ++ s.fsE
      else 0#1 ++ s.fsR ++ (if s.variant = .packed2 ∧ s.packedGSrc = .red then s.fsR else s.fsG) ++ s.fsB := by
  cases band with
  | true => rw [if_pos (h.1 rfl), responseWord_effect]
  | false => rw [if_neg fun hin => Bool.false_ne_true (h.2 hin), responseWord_base]

/-- R112: the base colour of PASS3 is FS.R, FS.G, FS.B, whatever the strap. -/
theorem responseWord_base_pass3 {s : State} (hv : s.variant = .pass3) :
    responseWord false (compose false s) = 0#1 ++ s.fsR ++ s.fsG ++ s.fsB := by
  rw [responseWord_base, if_neg (by simp [hv])]

/-- R117: with the Frame State at 0 every pixel is black. -/
theorem compose_frameZero {s : State} (h : FrameZero s) (band : Bool) : compose band s = ⟨0#8, 0#8, 0#8⟩ := by
  obtain ⟨hR, hG, hB, -, -, hE, -⟩ := h
  cases band with
  | true => simp only [compose, hE, if_true]
  | false => simp only [compose, baseColour, hR, hG, hB, ite_self]; rfl

/-! ### A colour command is its response -/

/-- `s` with more words emitted on port O, and nothing else changed. -/
def emit (l : List Response) (s : State) : State := { s with responses := s.responses ++ l }

theorem emit_nil (s : State) : emit [] s = s := by rw [emit, List.append_nil]

theorem emit_emit (l l' : List Response) (s : State) : emit l' (emit l s) = emit (l ++ l') s := by
  simp only [emit, List.append_assoc]

/-- R115: no command's response depends on the words emitted before. -/
theorem responseTo_emit (i : Instr) (l : List Response) (s : State) : responseTo i (emit l s) = responseTo i s := by
  cases i <;> rfl

/-- R115: no command's response depends on the moves still to come. -/
theorem responseTo_withInputs (i : Instr) (s : State) (l : List Input) :
    responseTo i (s.withInputs l) = responseTo i s := by
  cases i <;> rfl

theorem respond_eq_emit (s : State) (c : Rgb) (band : Bool) : s.respond c band = emit [responseWord band c] s := rfl

/-- R113 to R115: a colour command emits its response and changes nothing else. -/
theorem exec_colour {i : Instr} (hi : i.opcode = .col1 ∨ i.opcode = .col2) (s : State) :
    exec i s = .next (emit (responseTo i s) s) := by
  cases i with
  | chwr slot value => simp [Instr.opcode] at hi
  | prep dt => simp [Instr.opcode] at hi
  | col1 index count => exact exec_col1 index count s
  | col2 index x y => exact exec_col2 index x y s

/-- R115, R46: colour commands put in front of any moves are answered one after the other, each as from the first state. -/
theorem runsTo_colours_withInputs {is : List Instr}
    (his : ∀ i ∈ is, WellFormed i ∧ (i.opcode = .col1 ∨ i.opcode = .col2)) (s : State) (rest : List Input) :
    RunsTo is.length (s.withInputs (is.map offer ++ rest))
      ((emit (is.flatMap (fun i => responseTo i s)) s).withInputs rest) := by
  induction is generalizing s with
  | nil => exact runsTo_zero.2 (by rw [List.flatMap_nil, emit_nil]; rfl)
  | cons i is ih =>
    obtain ⟨⟨hwf, hcolour⟩, his⟩ := List.forall_mem_cons.1 his
    have hfirst : step (s.withInputs ((i :: is).map offer ++ rest)) =
        .next ((emit (responseTo i s) s).withInputs (is.map offer ++ rest)) := by
      rw [step_legal rfl (decode_encode hwf), exec_colour hcolour, State.withInputs_withInputs, responseTo_withInputs]
      rfl
    have hlater := ih his (emit (responseTo i s) s)
    simp only [responseTo_emit, emit_emit] at hlater
    exact runsTo_succ.2 ⟨_, hfirst, hlater⟩

/-! ### Pixels of PASS3 -/

/-- R116: in PASS3 no pixel is in the band, so every colour command answers the same word. -/
theorem exec_colour_pass3 {s : State} (hv : s.variant = .pass3) {w : Response}
    (hw : 0#1 ++ s.fsR ++ s.fsG ++ s.fsB = w) :
    (∀ index count, exec (.col1 index count) s = .next { s with responses := s.responses ++ [w] }) ∧
    ∀ index x y, exec (.col2 index x y) s = .next { s with responses := s.responses ++ [w] } := by
  have hoff : regionEn s.variant = false := by rw [hv]; rfl
  have hbase : s.respond (compose false s) false = { s with responses := s.responses ++ [w] } := by
    rw [respond_eq_emit, responseWord_base_pass3 hv, hw]
    rfl
  refine ⟨fun index count => ?col1, fun index x y => ?col2⟩
  case col1 => rw [exec_col1, band1_eq_false_of_regionOff hoff, hbase]
  case col2 => rw [exec_col2, band2_eq_false_of_regionOff hoff, hbase]

/-! ### Where the strap PACKED_G_SRC is read -/

/-- `s` as it would be had the reset sampled this setting of the strap. -/
def withGreenSource (s : State) (g : GreenSource) : State := { s with packedGSrc := g }

/-- R112: preparing a frame does not read the strap. -/
theorem prepareFrame_withGreenSource (c : Channels) (dt : Int) (s : State) (g : GreenSource) :
    prepareFrame c dt (withGreenSource s g) = withGreenSource (prepareFrame c dt s) g := by
  cases he : effectEn s.variant with
  | false =>
    rw [prepareFrame_noEffect c dt he, prepareFrame_noEffect c dt (s := withGreenSource s g) he]
    rfl
  | true =>
    rw [prepareFrame_effect c dt he, prepareFrame_effect c dt (s := withGreenSource s g) he]
    rfl

/-- The answer of a command without a response, in the form that names the responses. -/
theorem withGreenSource_of_silent {s t : State} (h : t.responses = s.responses) (g : GreenSource) :
    withGreenSource t g = { t with packedGSrc := g, responses := s.responses ++ [] } := by
  rw [List.append_nil, ← h]
  rfl

/-- R112: under the other strap setting a command does the same but for its response. -/
theorem exec_withGreenSource {i : Instr} {s t : State} (h : exec i s = .next t) (g : GreenSource) :
    exec i (withGreenSource s g) =
      .next { t with packedGSrc := g, responses := s.responses ++ responseTo i (withGreenSource s g) } := by
  rcases exec_next_cases h with ⟨slot, value, rfl, hmissing, rfl⟩ | ⟨slot, value, rfl, hslot, rfl⟩ | ⟨dt, rfl, rfl⟩ |
    ⟨band, ⟨index, count, rfl, rfl⟩ | ⟨index, x, y, rfl, rfl⟩, rfl⟩
  case inl =>
    rw [exec_chwr, if_pos (show nch (withGreenSource s g).variant ≤ slot from hmissing)]
    exact congrArg Host.Outcome.next (withGreenSource_of_silent (t := s.raise .slot) (by simp) g)
  case inr.inl =>
    rw [exec_chwr_existing (s := withGreenSource s g) hslot value]
    exact congrArg Host.Outcome.next (withGreenSource_of_silent (t := s.writeSlot slot value) rfl g)
  case inr.inr.inl =>
    rw [exec_prep, prepareFrame_withGreenSource]
    exact congrArg Host.Outcome.next (withGreenSource_of_silent (by simp) g)
  case inr.inr.inr.inl => exact exec_colour (.inl rfl) (withGreenSource s g)
  case inr.inr.inr.inr => exact exec_colour (.inr rfl) (withGreenSource s g)

/-- R112: outside PACKED2 no response reads the strap. -/
theorem responseTo_withGreenSource {s : State} (hv : s.variant ≠ .packed2) (i : Instr) (g : GreenSource) :
    responseTo i (withGreenSource s g) = responseTo i s := by
  have hcompose : ∀ band, compose band (withGreenSource s g) = compose band s := by
    intro band
    simp only [compose, baseColour, withGreenSource, hv, false_and, if_false]
  cases i with
  | chwr slot value => rfl
  | prep dt => rfl
  | col1 index count => simp only [responseTo, hcompose]; rfl
  | col2 index x y => simp only [responseTo, hcompose]; rfl

end Sys2Proof.Proofs
end

section
/-! The statements of 43_color_compositor.md. -/

namespace Sys2Proof.Proofs
open Sys2Proof.Machine

/-- Settles O39: the band bit decides the comparison of R101, and the composed word follows it. -/
theorem col1Responds : Obligations.Col1Responds := fun s index count =>
  ⟨_, exec_col1 index count s, responseWord_compose (band1_eq_true_iff s.variant index count) s⟩

/-- Settles O40: as for COL1, with the comparison of R102. -/
theorem col2Responds : Obligations.Col2Responds := fun s index x y =>
  ⟨_, exec_col2 index x y s, responseWord_compose (band2_eq_true_iff s.variant y) s⟩

/-- Settles O42: the one word of PASS3, and for the scenario that word after the PREP that decodes the three slots. -/
theorem passThroughShowsOneColour : Obligations.PassThroughShowsOneColour := by
  intro s hv
  obtain ⟨hcol1, hcol2⟩ := exec_colour_pass3 hv rfl
  refine ⟨hcol1, hcol2, fun h0 h1 h2 dt => ⟨_, prepInPassThrough s dt hv, ?scenario⟩⟩
  case scenario =>
    have hword : 0#1 ++ dec8 (s.ch.read 0) ++ dec8 (s.ch.read 1) ++ dec8 (s.ch.read 2) = 0x0804020#25 := by
      rw [h0, h1, h2]
      decide
    refine exec_colour_pass3 ?_ ?_
    · exact hv
    · exact hword

/-- Settles O43: before the first PREP the Frame State is 0, so the composed colour is black in either band. -/
theorem colourBeforeFirstPrepIsBlack : Obligations.ColourBeforeFirstPrepIsBlack := by
  intro s hs hfv
  have hblack : ∀ band, s.respond (compose band s) band =
      { s with responses := s.responses ++ [BitVec.ofBool band ++ 0#24] } := by
    intro band
    rw [compose_frameZero (hs.beforeFirstPrep hfv), respond_eq_emit, responseWord_black]
    rfl
  refine ⟨fun index count => ?col1, fun index x y => ?col2⟩
  case col1 => rw [exec_col1, hblack]
  case col2 => rw [exec_col2, hblack]

/-- Settles O44: the strap reaches a command's response only, and that only through the base colour of PACKED2. -/
theorem greenStrapOnlyReachesPackedResponses : Obligations.GreenStrapOnlyReachesPackedResponses := by
  intro i s t g h
  refine ⟨_, exec_withGreenSource h g, rfl, fun hv => ?_⟩
  rw [exec_responses h, ← responseTo_withGreenSource hv i g]

/-- Settles O52: the run emits the responses of its commands, in order, and takes the moves that offer them. -/
theorem colourRunsArePure : Obligations.ColourRunsArePure := by
  intro s is rest his hi
  have hrun := runsTo_colours_withInputs his s rest
  rw [← hi] at hrun
  exact ⟨_, hrun, rfl, rfl⟩

end Sys2Proof.Proofs
end

section
/-! The error causes (60_exceptions.md R121 to R129): the cause that a move raises, if any, and the one rule of the error
flags over a step without a reset, from which the statements about them are derived. -/

namespace Sys2Proof.Proofs
open Sys2Proof.Machine

/-! ### The step without a word -/

/-- R134: with no move offered the block is idle. -/
theorem step_idle {s : State} (hi : s.inputs = []) : step s = .next s := by
  simp only [step, takeInput, hi]

/-- R140: a step that takes an assertion of RST. -/
theorem step_reset {s : State} {v : BitVec 2} {g : BitVec 1} {rest : List Input} (hi : s.inputs = .reset v g :: rest) :
    step s = releaseReset v g (s.withInputs rest) := by
  simp only [step, takeInput_cons hi]

theorem noResetNext_of_command {s : State} {p : Port} {c : CmdWord} {rest : List Input}
    (hi : s.inputs = .command p c :: rest) : NoResetNext s := by
  intro v g rest' h
  rw [hi] at h
  cases h

theorem exists_reset_of_not_noResetNext {s : State} (h : ¬ NoResetNext s) : ∃ v g rest, s.inputs = .reset v g :: rest := by
  simpa [NoResetNext] using h

/-! ### The cause that a move raises -/

/-- R122, R125: a legal command can raise SLOT only, and only a CHWR does. -/
def causeOfInstr (v : Variant) : Instr → Option ErrorCause
  | .chwr slot _ => if nch v ≤ slot then some .slot else none
  | .prep _ => none
  | .col1 _ _ => none
  | .col2 _ _ _ => none

/-- R121, R125: a word that does not decode raises ILL, and is not tested for SLOT. -/
def causeOfMove (v : Variant) : Input → Option ErrorCause
  | .command p c =>
    match decode p c with
    | .ok i => causeOfInstr v i
    | .error _ => some .ill
  | .reset _ _ => none

/-- The cause that the next step raises, if there is a move and it raises one. -/
def causeNext (s : State) : Option ErrorCause := s.inputs.head?.bind (causeOfMove s.variant)

theorem causeNext_idle {s : State} (hi : s.inputs = []) : causeNext s = none := by
  simp only [causeNext, hi, List.head?_nil, Option.bind_none]

section
variable {s : State} {p : Port} {c : CmdWord} {rest : List Input} (hi : s.inputs = .command p c :: rest)
include hi

theorem causeNext_legal {i : Instr} (hd : decode p c = .ok i) : causeNext s = causeOfInstr s.variant i := by
  simp only [causeNext, hi, List.head?_cons, Option.bind_some, causeOfMove, hd]

theorem causeNext_illegal {why : IllegalReason} (hd : decode p c = .error why) : causeNext s = some .ill := by
  simp only [causeNext, hi, List.head?_cons, Option.bind_some, causeOfMove, hd]

end

theorem causeOfInstr_ne_ill (v : Variant) (i : Instr) : causeOfInstr v i ≠ some .ill := by
  cases i <;> simp [causeOfInstr]

theorem causeOfInstr_eq_slot_iff {v : Variant} {i : Instr} :
    causeOfInstr v i = some .slot ↔ ∃ slot value, i = .chwr slot value ∧ nch v ≤ slot := by
  cases i <;> simp [causeOfInstr]

/-- R121: ILL is raised exactly by a word that does not decode. -/
theorem causeNext_eq_ill_iff {s : State} :
    causeNext s = some .ill ↔ ∃ p c rest why, s.inputs = .command p c :: rest ∧ decode p c = .error why := by
  constructor
  · intro h
    match hi : s.inputs with
    | [] => simp [causeNext_idle hi] at h
    | .reset v g :: rest => simp [causeNext, hi, causeOfMove] at h
    | .command p c :: rest =>
      cases hd : decode p c with
      | ok i => exact absurd ((causeNext_legal hi hd).symm.trans h) (causeOfInstr_ne_ill _ i)
      | error why => exact ⟨p, c, rest, why, rfl, hd⟩
  · rintro ⟨p, c, rest, why, hi, hd⟩
    exact causeNext_illegal hi hd

/-- R122: SLOT is raised exactly by a legal CHWR, which is on port B, to a slot that does not exist. -/
theorem causeNext_eq_slot_iff {s : State} :
    causeNext s = some .slot ↔ ∃ c rest slot value, s.inputs = .command .b c :: rest ∧
      decode .b c = .ok (.chwr slot value) ∧ nch s.variant ≤ slot := by
  constructor
  · intro h
    match hi : s.inputs with
    | [] => simp [causeNext_idle hi] at h
    | .reset v g :: rest => simp [causeNext, hi, causeOfMove] at h
    | .command p c :: rest =>
      cases hd : decode p c with
      | error why => simp [causeNext_illegal hi hd] at h
      | ok i =>
        rw [causeNext_legal hi hd] at h
        obtain ⟨slot, value, rfl, hslot⟩ := causeOfInstr_eq_slot_iff.1 h
        obtain rfl : p = .b := port_of_decode hd
        exact ⟨c, rest, slot, value, rfl, hd, hslot⟩
  · rintro ⟨c, rest, slot, value, hi, hd, hslot⟩
    rw [causeNext_legal hi hd]
    exact causeOfInstr_eq_slot_iff.2 ⟨slot, value, rfl, hslot⟩

/-! ### The error flags over a command and over a step -/

/-- `s` with these error flags, and nothing else changed. -/
def withErrors (s : State) (ill slot : Bool) : State := { s with errIll := ill, errSlot := slot }

theorem withErrors_self (s : State) : withErrors s s.errIll s.errSlot = s := rfl

/-- R16, R127: `s` with these error flags or-ed with a cause, if there is one. -/
def withCause (s : State) (ill slot : Bool) (cause : Option ErrorCause) : State :=
  withErrors s (ill || decide (cause = some .ill)) (slot || decide (cause = some .slot))

theorem withCause_none (s : State) (ill slot : Bool) : withCause s ill slot none = withErrors s ill slot := by
  simp [withCause]

/-- Raising a cause ors it into the error flags, whatever they are. -/
theorem raise_withErrors (s : State) (ill slot : Bool) (cause : ErrorCause) :
    (withErrors s ill slot).raise cause = withCause (s.raise cause) ill slot (some cause) := by
  cases cause <;> simp [State.raise, withCause, withErrors]

/-- R126: preparing a frame does not read the error flags. -/
theorem prepareFrame_withErrors (c : Channels) (dt : Int) (s : State) (ill slot : Bool) :
    prepareFrame c dt (withErrors s ill slot) = withErrors (prepareFrame c dt s) ill slot := by
  cases he : effectEn s.variant with
  | false =>
    rw [prepareFrame_noEffect c dt he, prepareFrame_noEffect c dt (s := withErrors s ill slot) he]
    rfl
  | true =>
    rw [prepareFrame_effect c dt he, prepareFrame_effect c dt (s := withErrors s ill slot) he]
    rfl

/-- R126: from any error flags a command does the same but for them, and ors its cause into them. -/
theorem exec_withErrors {i : Instr} {s t : State} (h : exec i s = .next t) (ill slot : Bool) :
    exec i (withErrors s ill slot) = .next (withCause t ill slot (causeOfInstr s.variant i)) := by
  rcases exec_next_cases h with ⟨a, value, rfl, hmissing, rfl⟩ | ⟨a, value, rfl, ha, rfl⟩ | ⟨dt, rfl, rfl⟩ |
    ⟨band, ⟨index, count, rfl, rfl⟩ | ⟨index, x, y, rfl, rfl⟩, rfl⟩
  case inl =>
    rw [exec_chwr, if_pos (show nch (withErrors s ill slot).variant ≤ a from hmissing), raise_withErrors,
      causeOfInstr_eq_slot_iff.2 ⟨a, value, rfl, hmissing⟩]
  case inr.inl =>
    have hcause : causeOfInstr s.variant (.chwr a value) = none := if_neg (Nat.not_le.2 ha)
    rw [exec_chwr_existing (s := withErrors s ill slot) ha value, hcause, withCause_none]
    rfl
  case inr.inr.inl =>
    rw [exec_prep, prepareFrame_withErrors, causeOfInstr, withCause_none]
    rfl
  case inr.inr.inr.inl =>
    rw [exec_col1, causeOfInstr, withCause_none]
    rfl
  case inr.inr.inr.inr =>
    rw [exec_col2, causeOfInstr, withCause_none]
    rfl

/-- R126, R127: from any error flags a step without a reset does the same but for them, and ors into them the cause that
its move raises. -/
theorem step_withErrors {s t : State} (hn : NoResetNext s) (h : step s = .next t) (ill slot : Bool) :
    step (withErrors s ill slot) = .next (withCause t ill slot (causeNext s)) := by
  rcases step_cases h with ⟨hi, rfl⟩ | ⟨p, c, rest, i, hi, hd, he⟩ | ⟨p, c, rest, why, hi, hd, rfl⟩ |
    ⟨v, g, rest, w, hi, -, -⟩
  case inl => rw [step_idle (s := withErrors t ill slot) hi, causeNext_idle hi, withCause_none]
  case inr.inl =>
    rw [step_legal (s := withErrors s ill slot) hi hd, causeNext_legal hi hd]
    exact exec_withErrors he ill slot
  case inr.inr.inl =>
    rw [step_illegal (s := withErrors s ill slot) hi hd, causeNext_illegal hi hd]
    exact congrArg Host.Outcome.next (raise_withErrors (s.withInputs rest) ill slot .ill)
  case inr.inr.inr => exact absurd hi (hn v g rest)

/-- R16, R127: each error flag ends as it was, or-ed with the cause that the step's move raises. -/
theorem step_errors {s t : State} (hn : NoResetNext s) (h : step s = .next t) :
    t.errIll = (s.errIll || decide (causeNext s = some .ill)) ∧
    t.errSlot = (s.errSlot || decide (causeNext s = some .slot)) := by
  have hown := step_withErrors hn h s.errIll s.errSlot
  rw [withErrors_self, h] at hown
  have ht : t = withCause t s.errIll s.errSlot (causeNext s) := Host.Outcome.next.inj hown
  exact ⟨congrArg State.errIll ht, congrArg State.errSlot ht⟩

/-- R125: an error flag that a step changes is that of the cause its move raises. -/
theorem causeNext_of_error_changes {s t : State} (hn : NoResetNext s) (h : step s = .next t) :
    (t.errIll ≠ s.errIll → causeNext s = some .ill) ∧ (t.errSlot ≠ s.errSlot → causeNext s = some .slot) := by
  obtain ⟨hill, hslot⟩ := step_errors hn h
  refine ⟨fun hne => ?ill, fun hne => ?slot⟩
  case ill =>
    by_contra hcause
    exact hne (by simpa [hcause] using hill)
  case slot =>
    by_contra hcause
    exact hne (by simpa [hcause] using hslot)

/-- R140: an assertion of RST does the same whatever the error flags, and clears them. -/
theorem step_reset_withErrors {s t : State} (hr : ¬ NoResetNext s) (h : step s = .next t) (ill slot : Bool) :
    step (withErrors s ill slot) = .next t ∧ t.errIll = false ∧ t.errSlot = false := by
  obtain ⟨v, g, rest, hi⟩ := exists_reset_of_not_noResetNext hr
  rw [step_reset hi] at h
  refine ⟨(step_reset (s := withErrors s ill slot) hi).trans h, ?cleared⟩
  case cleared =>
    rcases releaseReset_cases v g (s.withInputs rest) with ⟨-, hrefused⟩ | ⟨w, -, hnext⟩
    · rw [hrefused] at h
      cases h
    · obtain rfl := Host.Outcome.next.inj (hnext.symm.trans h)
      exact ⟨rfl, rfl⟩

end Sys2Proof.Proofs
end

section
/-! The statements of 60_exceptions.md. -/

namespace Sys2Proof.Proofs
open Sys2Proof.Machine

/-- Settles O7: no move is there to take. -/
theorem idleBlockHoldsItsState : Obligations.IdleBlockHoldsItsState := fun _ => step_idle

/-- Settles O47: a step only ors into the flags. -/
theorem errorFlagsAreSticky : Obligations.ErrorFlagsAreSticky := by
  intro s t hn h
  obtain ⟨hill, hslot⟩ := step_errors hn h
  exact ⟨fun hset => by rw [hill, hset, Bool.true_or], fun hset => by rw [hslot, hset, Bool.true_or]⟩

/-- Settles O48: a flag that changes is that of the one cause that the move raises; and a CHWR word on port H, or with a
nonzero Z1, does not decode, so its slot is never read. -/
theorem atMostOneCausePerCommand : Obligations.AtMostOneCausePerCommand := by
  refine ⟨fun s t hn h => ?one, fun s p c rest hi hop hbad => ?illFirst⟩
  case one =>
    obtain ⟨hill, hslot⟩ := causeNext_of_error_changes hn h
    refine ⟨fun ⟨hne, hne'⟩ => ?_, fun hne => causeNext_eq_slot_iff.1 (hslot hne)⟩
    cases (hill hne).symm.trans (hslot hne')
  case illFirst =>
    have hreason : OnWrongPort p c ∨ MustBeZeroBroken c :=
      hbad.imp (fun hp => .inl ⟨hop, hp⟩) (fun hz => .inr (.inl ⟨hop, hz⟩))
    obtain ⟨why, hd⟩ := decode_of_reason (.inr hreason)
    exact step_illegal hi hd

/-- Settles O49: what a step raises is read off its move, and the error flags are read by no step. -/
theorem errorFlagsGateNothing : Obligations.ErrorFlagsGateNothing := by
  intro s t ill slot h
  refine ⟨fun hn => ?raises, fun hr => step_reset_withErrors hr h ill slot⟩
  case raises =>
    obtain ⟨hill, hslot⟩ := step_errors hn h
    exact ⟨decide (causeNext s = some .ill), decide (causeNext s = some .slot),
      decide_eq_true_iff.trans causeNext_eq_ill_iff, decide_eq_true_iff.trans causeNext_eq_slot_iff,
      hill, hslot, step_withErrors hn h ill slot⟩

/-- Settles O50: the commands that write the Frame State or answer decode on port H only, and CHWR, which writes the slots
and alone raises SLOT, on port B only. -/
theorem portsHaveFixedRights : Obligations.PortsHaveFixedRights := by
  intro s t p c rest hi h
  have hn := noResetNext_of_command hi
  refine ⟨?portB, ?portH⟩
  case portB =>
    rintro rfl
    refine ⟨?frame, ?responses⟩
    case frame =>
      rcases step_frame_cases hn h with ⟨_, _, _, hi', -⟩ | ⟨-, hframe⟩
      · cases hi.symm.trans hi'
      · exact hframe
    case responses => rw [step_responses hi h, answerTo_portB, List.append_nil]
  case portH =>
    rintro rfl
    refine ⟨fun a => ?slots, ?errSlot⟩
    case slots =>
      rcases step_buffer_cases hn h with ⟨_, _, _, _, hi', -⟩ | hch
      · cases hi.symm.trans hi'
      · rw [hch]
    case errSlot =>
      by_contra hne
      obtain ⟨_, _, _, _, hi', -⟩ := causeNext_eq_slot_iff.1 ((causeNext_of_error_changes hn h).2 hne)
      cases hi.symm.trans hi'

end Sys2Proof.Proofs
end

section
/-! Reset and the duties of the agents (70_reset_and_hazards.md R140, R141, R149, R150): the strap value of each variant,
the two outcomes of a step, and the states whose agents keep their duties. -/

namespace Sys2Proof.Proofs
open Sys2Proof.Machine

/-! ### Strap values -/

/-- R18: the value on the pins VARIANT[1:0] that selects a variant. -/
def strapOf : Variant → BitVec 2
  | .pass3 => 0#2
  | .strobe5 => 1#2
  | .packed2 => 2#2

theorem variantOfStrap_strapOf (w : Variant) : variantOfStrap (strapOf w) = some w := by
  cases w <;> rfl

theorem strapOf_inj {w u : Variant} : strapOf w = strapOf u ↔ w = u := by
  refine ⟨fun h => ?_, congrArg strapOf⟩
  rw [← Option.some_inj, ← variantOfStrap_strapOf w, h, variantOfStrap_strapOf u]

/-- R18: every strap value but the reserved one selects a variant. -/
theorem exists_strapOf {v : BitVec 2} (h : v ≠ 3#2) : ∃ w, v = strapOf w := by
  have hv : v = 0#2 ∨ v = 1#2 ∨ v = 2#2 := by
    revert v
    decide
  rcases hv with hv | hv | hv
  · exact ⟨.pass3, hv⟩
  · exact ⟨.strobe5, hv⟩
  · exact ⟨.packed2, hv⟩

/-! ### The two outcomes of a step -/

/-- R140: a reset whose pins select a variant. -/
theorem step_reset_strapOf {s : State} {w : Variant} {g : BitVec 1} {rest : List Input}
    (hi : s.inputs = .reset (strapOf w) g :: rest) :
    step s = .next ((State.resetWith w (greenOfStrap g)).withInputs rest) := by
  rw [step_reset hi, releaseReset, variantOfStrap_strapOf]
  rfl

/-- R141: a reset with the reserved strap value. -/
theorem step_reset_reserved {s : State} {g : BitVec 1} {rest : List Input} (hi : s.inputs = .reset 3#2 g :: rest) :
    step s = .refused .reservedVariantStrap :=
  step_reset hi

/-- R149: a step answers a next state, unless it takes a reset with the reserved strap value. -/
theorem step_answers_or_reserved (s : State) :
    (∃ t, step s = .next t) ∨ ∃ g rest, s.inputs = .reset 3#2 g :: rest := by
  match hi : s.inputs with
  | [] => exact .inl ⟨s, step_idle hi⟩
  | .command p c :: rest =>
    obtain ⟨t, ht, -⟩ := step_answers_command hi
    exact .inl ⟨t, ht⟩
  | .reset v g :: rest =>
    by_cases hv : v = 3#2
    · exact .inr ⟨g, rest, by rw [hv]⟩
    · obtain ⟨w, rfl⟩ := exists_strapOf hv
      exact .inl ⟨_, step_reset_strapOf hi⟩

/-! ### Agents that keep their duties -/

theorem not_isReset_of_dutiful {v : Variant} {x : Input} (h : Dutiful v x) : ¬ IsReset x := by
  cases x with
  | command _ _ => exact id
  | reset _ _ => exact h.elim

theorem isReset_of_reservedStrap {x : Input} (h : ReservedStrap x) : IsReset x := by
  cases x with
  | command _ _ => exact h.elim
  | reset _ _ => trivial

/-- R150: a dutiful move raises no cause: its word decodes, and the slot of a CHWR exists. -/
theorem causeOfMove_of_dutiful {v : Variant} {x : Input} (h : Dutiful v x) : causeOfMove v x = none := by
  cases x with
  | reset _ _ => rfl
  | command p c =>
    cases hd : decode p c with
    | error why => simp [Dutiful, hd] at h
    | ok i =>
      cases i with
      | chwr slot value =>
        have hslot : slot < nch v := by simpa [Dutiful, hd] using h
        simp [causeOfMove, causeOfInstr, hd, hslot]
      | prep dt => simp [causeOfMove, causeOfInstr, hd]
      | col1 index count => simp [causeOfMove, causeOfInstr, hd]
      | col2 index x y => simp [causeOfMove, causeOfInstr, hd]

/-- R150: no error flag is set, and every move still to come is dutiful. -/
structure ClearAndDutiful (s : State) : Prop where
  ill : s.errIll = false
  slot : s.errSlot = false
  moves : ∀ x ∈ s.inputs, Dutiful s.variant x

theorem causeNext_of_dutiful {s : State} (h : ∀ x ∈ s.inputs, Dutiful s.variant x) : causeNext s = none := by
  rw [causeNext, Option.bind_eq_none_iff]
  exact fun x hx => causeOfMove_of_dutiful (h x (List.mem_of_head? hx))

/-- R150 over one step: the move raises no cause, and the variant, by which the moves left over are judged, stays. -/
theorem step_keeps_clearAndDutiful {s t : State} (hn : NoResetNext s) (h : step s = .next t) (hs : ClearAndDutiful s) :
    ClearAndDutiful t := by
  obtain ⟨hvariant, -⟩ := step_keeps_straps hn h
  obtain ⟨hill, hslot⟩ := step_errors hn h
  have hcause := causeNext_of_dutiful hs.moves
  refine ⟨by simp [hill, hs.ill, hcause], by simp [hslot, hs.slot, hcause], fun x hx => ?moves⟩
  case moves =>
    rw [step_takes_one h] at hx
    exact hvariant ▸ hs.moves x (List.mem_of_mem_tail hx)

end Sys2Proof.Proofs
end

section
/-! The statements of 70_reset_and_hazards.md. -/

namespace Sys2Proof.Proofs
open Sys2Proof.Machine

/-- Settles O10: pins that do not read 3 read the strap value of one variant, and of no other. -/
theorem resetSamplesTheStraps : Obligations.ResetSamplesTheStraps := by
  intro s v g rest hi hv
  obtain ⟨w, rfl⟩ := exists_strapOf hv
  exact ⟨w, step_reset_strapOf hi, strapOf_inj.symm, strapOf_inj.symm, strapOf_inj.symm⟩

/-- Settles O11: the reserved strap value selects no variant. -/
theorem reservedStrapIsRefused : Obligations.ReservedStrapIsRefused := by
  refine ⟨fun s g rest hi => step_reset_reserved hi, fun v => ?variants⟩
  case variants => cases v <;> simp

/-- Settles O12: a step either answers a next state or takes the reserved strap value, and never both. -/
theorem stepStopsOnlyAtReservedStrap : Obligations.StepStopsOnlyAtReservedStrap := by
  intro s
  refine ⟨fun f => (nomatch f), fun r => ⟨fun h => ?refused, ?reserved⟩⟩
  case refused =>
    rcases step_answers_or_reserved s with ⟨t, ht⟩ | ⟨g, rest, hi⟩
    · cases ht.symm.trans h
    · cases (step_reset_reserved hi).symm.trans h
      exact ⟨rfl, g, rest, hi⟩
  case reserved =>
    rintro ⟨rfl, g, rest, hi⟩
    exact step_reset_reserved hi

/-- Settles O58: every dutiful move is executed, and no step of the run raises a cause. -/
theorem dutifulAgentsRaiseNoFlag : Obligations.DutifulAgentsRaiseNoFlag := by
  intro s hill hslot hmoves
  have hnoReset : ∀ x ∈ s.inputs, ¬ IsReset x := fun x hx => not_isReset_of_dutiful (hmoves x hx)
  obtain ⟨t, hrun, hdone⟩ :=
    everyOfferedMoveIsExecuted s (fun x hx hreserved => hnoReset x hx (isReset_of_reservedStrap hreserved))
  have hclear := runsTo_keeps step_keeps_clearAndDutiful (fun x hx => hnoReset x (List.mem_of_mem_take hx)) hrun
    ⟨hill, hslot, hmoves⟩
  exact ⟨t, hrun, hdone, hclear.ill, hclear.slot⟩

end Sys2Proof.Proofs
end
